-- ==== Sys2Proof/Word.lean ====
section
/-! DEFINITION. The fixed-width words of the part (spec 00, Conventions, R1). -/

namespace Sys2Proof

/-- A byte of a packet, a response or the trailer. -/
abbrev Byte := BitVec 8

/-- A 16-bit value: a CRC, a signature, a camera ID, a sequence number. -/
abbrev Half := BitVec 16

/-- The 32 data bits of a table word, or one detail word of a fault record. -/
abbrev Word := BitVec 32

/-- A 12-bit companded camera code (spec 00, The camera frame). -/
abbrev Code := BitVec 12

/-- A device time: a count of microseconds modulo 2^32 (spec 00, Device time). -/
abbrev Time := BitVec 32

end Sys2Proof
end

