-- ==== Sys2Proof/Syntax.lean ====
section
/-! DEFINITION. The names the spec gives to sides, views, table kinds, fault descriptors and self-test
steps, and the steps of the part: one constructor of `Instr` per row of spec/opcode_table.json. -/

namespace Sys2Proof

/-- A side of the vehicle, and with it a camera, a display link and a monitor (spec 00). -/
inductive Side where
  | left
  | right
deriving DecidableEq, Repr

/-- The four views, in the order of their indices 0..3 (spec 00, Views). -/
inductive View where
  | leftMain
  | leftWide
  | rightMain
  | rightWide
deriving DecidableEq, Repr

/-- The eight table kinds, in the order of their codes 0..7 (R156). -/
inductive Kind where
  | cameraL
  | cameraR
  | view
  | tone
  | glare
  | light
  | policy
  | timing
deriving DecidableEq, Repr

/-- The two banks of a table kind (R156). -/
inductive Bank where
  | bankA
  | bankB
deriving DecidableEq, Repr

/-- Fault kinds 0x01..0x0D, of the camera sources (R117). -/
inductive CamKind where
  | linkLost
  | lineCrc
  | frameAbort
  | counterStall
  | counterSkip
  | frozen
  | cameraId
  | cameraReported
  | period
  | silent
  | glareOverload
  | selftestDone
  | selftestFail
deriving DecidableEq, Repr

/-- The view kinds 0x10..0x12 (R116, R117). -/
inductive ViewKind where
  | latency
  | viewLost
  | ddrError
deriving DecidableEq, Repr

/-- Fault kinds 0x20..0x24, of the display sources (R117). -/
inductive DispKind where
  | telemetryLost
  | displayReported
  | returnFraming
  | returnCrc
  | commandDiscard
deriving DecidableEq, Repr

/-- Fault kinds 0x30..0x32, of the source CORE (R117). -/
inductive CoreKind where
  | tableSec
  | tableDed
  | resetSeen
deriving DecidableEq, Repr

/-- The 51 fault descriptors that the kind table allows (R116, R125). The view of a view kind fixes its
source. -/
inductive Descriptor where
  | cam (side : Side) (kind : CamKind)
  | view (view : View) (kind : ViewKind)
  | disp (side : Side) (kind : DispKind)
  | core (kind : CoreKind)
deriving DecidableEq, Repr

/-- The five self-test steps, in the order they are taken (R143). -/
inductive Step where
  | link
  | ident
  | pattern
  | develop
  | store
deriving DecidableEq, Repr

/-- One pixel of an output frame: 10 bits a channel (spec 00, The output frame). -/
structure Rgb where
  r : BitVec 10
  g : BitVec 10
  b : BitVec 10
deriving DecidableEq, Repr

/-- A region-sized picture, row by row from the top, each row from the left. -/
abbrev Picture := List (List Rgb)

/-- A disturbance of one stored bit of the table RAM (R156): bits 0..31 are the data bits of the word,
32..38 its check bits. -/
structure Upset where
  addr : Fin 548
  bit : Fin 39
deriving DecidableEq, Repr

/-- The steps of the part, one per row of spec/opcode_table.json. `t` is the device time at which the step
is taken. The rows from `echo` on are commands that the executor takes from `link` (R186); `tag` and
`param` are the TAG and the PARAM bytes of their packet (R179). -/
inductive Instr where
  /-- POWER_ON (R176). -/
  | powerOn
  /-- TABLE_CLEAR_END (R176). -/
  | tableClearEnd (t : Time)
  /-- SOFT_RESET_INSTANT (R190). -/
  | softResetInstant (t : Time)
  /-- LINK_LOST (R2): the camera link reports loss of lock. -/
  | linkLost (t : Time) (side : Side)
  /-- LINK_LOCK (R3): the camera link reports lock. -/
  | linkLock (t : Time) (side : Side)
  /-- FRAME_START (R5). -/
  | frameStart (t : Time) (side : Side)
  /-- EMBEDDED_LINE (R7): a line with index 0; `good` is its check-good mark. -/
  | embeddedLine (t : Time) (side : Side) (good : Bool) (codes : List Code)
  /-- ACTIVE_LINE (R14): a line with any other index. -/
  | activeLine (t : Time) (side : Side) (index : Nat) (good : Bool) (codes : List Code)
  /-- FRAME_END (R16). -/
  | frameEnd (t : Time) (side : Side)
  /-- REFERENCE_PASS_END (R47): the end of an IMMEDIATE reference pass. -/
  | referencePassEnd (t : Time) (side : Side)
  /-- SILENT_TIMER_EXPIRY (R24). -/
  | silentTimerExpiry (t : Time) (side : Side)
  /-- FRAME_START_STAMP_EXPIRY (R21). -/
  | frameStartStampExpiry (t : Time) (side : Side)
  /-- COMPLETION_STAMP_EXPIRY (R60). -/
  | completionStampExpiry (t : Time) (side : Side)
  /-- DDR_WRITE_FAIL (R54): a region write transfer of the view fails. -/
  | ddrWriteFail (t : Time) (view : View)
  /-- REGION_READ_DONE (R55): the region read completes (`ok`) or fails. -/
  | regionReadDone (t : Time) (view : View) (ok : Bool)
  /-- OUTPUT_FRAME_START (R59) of a display. -/
  | outputFrameStart (t : Time) (side : Side)
  /-- RETURN_LANE_BYTE (R180): a byte arrives on a display link's return lane. -/
  | returnLaneByte (t : Time) (link : Side) (byte : Byte)
  /-- PACKET_TIMEOUT (R182). -/
  | packetTimeout (t : Time) (link : Side)
  /-- AMBIENT_TIMER_EXPIRY (R101). -/
  | ambientTimerExpiry (t : Time) (side : Side)
  /-- PULSE_EXPIRY (R121). -/
  | pulseExpiry (t : Time) (descriptor : Descriptor)
  /-- HOLD_OFF_EXPIRY (R129). -/
  | holdOffExpiry (t : Time)
  /-- SELFTEST_STEP_TIMEOUT (R148). -/
  | selftestStepTimeout (t : Time) (side : Side)
  /-- STORE_WRITE_DONE (R149): the write of the self-test buffer completes (`ok`) or fails. -/
  | storeWriteDone (t : Time) (side : Side) (ok : Bool)
  /-- STORE_READ_DONE (R149): the read-back returns the data read, or fails (`none`). -/
  | storeReadDone (t : Time) (side : Side) (data : Option Picture)
  /-- SYNC_WORD_COPY (R168): the sync copy of a kind copies its next word. -/
  | syncWordCopy (t : Time) (kind : Kind)
  /-- SCRUB_VISIT (R173); `upsets` are the disturbances of stored words that have come about by now (R156). -/
  | scrubVisit (t : Time) (upsets : List Upset)
  /-- ECHO (R196). -/
  | echo (t : Time) (link : Side) (tag : Byte) (param : List Byte)
  /-- GET_STATUS (R197). -/
  | getStatus (t : Time) (link : Side) (tag : Byte) (param : List Byte)
  /-- ENTER_RUN (R198). -/
  | enterRun (t : Time) (link : Side) (tag : Byte) (param : List Byte)
  /-- ENTER_CONFIG (R199). -/
  | enterConfig (t : Time) (link : Side) (tag : Byte) (param : List Byte)
  /-- SOFT_RESET (R200). -/
  | softReset (t : Time) (link : Side) (tag : Byte) (param : List Byte)
  /-- SET_CHANNEL (R201). -/
  | setChannel (t : Time) (link : Side) (tag : Byte) (param : List Byte)
  /-- LOAD_TABLE (R202). -/
  | loadTable (t : Time) (link : Side) (tag : Byte) (param : List Byte)
  /-- COMMIT_TABLE (R203). -/
  | commitTable (t : Time) (link : Side) (tag : Byte) (param : List Byte)
  /-- READ_TABLE (R204). -/
  | readTable (t : Time) (link : Side) (tag : Byte) (param : List Byte)
  /-- TABLE_STATUS (R205). -/
  | tableStatus (t : Time) (link : Side) (tag : Byte) (param : List Byte)
  /-- LOCK_TABLE (R206). -/
  | lockTable (t : Time) (link : Side) (tag : Byte) (param : List Byte)
  /-- SET_PAN (R207). -/
  | setPan (t : Time) (link : Side) (tag : Byte) (param : List Byte)
  /-- FORCE_LIGHT (R208). -/
  | forceLight (t : Time) (link : Side) (tag : Byte) (param : List Byte)
  /-- GET_GLARE (R209). -/
  | getGlare (t : Time) (link : Side) (tag : Byte) (param : List Byte)
  /-- GET_TIMING (R210). -/
  | getTiming (t : Time) (link : Side) (tag : Byte) (param : List Byte)
  /-- GET_EVENTS (R212). -/
  | getEvents (t : Time) (link : Side) (tag : Byte) (param : List Byte)
  /-- CLEAR_EVENTS (R213). -/
  | clearEvents (t : Time) (link : Side) (tag : Byte) (param : List Byte)
  /-- SET_EVENT_ENABLE (R214). -/
  | setEventEnable (t : Time) (link : Side) (tag : Byte) (param : List Byte)
  /-- READ_LOG (R215). -/
  | readLog (t : Time) (link : Side) (tag : Byte) (param : List Byte)
  /-- START_SELFTEST (R216). -/
  | startSelftest (t : Time) (link : Side) (tag : Byte) (param : List Byte)
  /-- ABORT_SELFTEST (R217). -/
  | abortSelftest (t : Time) (link : Side) (tag : Byte) (param : List Byte)
  /-- GET_SELFTEST (R218). -/
  | getSelftest (t : Time) (link : Side) (tag : Byte) (param : List Byte)
  /-- CLEAR_SELFTEST (R219). -/
  | clearSelftest (t : Time) (link : Side) (tag : Byte) (param : List Byte)
  /-- BAD_KIND_COMMAND (R187): `kind` is the packet's KIND, which is no command code. -/
  | badKindCommand (t : Time) (link : Side) (tag : Byte) (kind : Byte) (param : List Byte)
deriving DecidableEq, Repr

end Sys2Proof
end

