-- ==== Sys2Proof/Decode.lean ====
section
/-! DEFINITION. The words of spec/opcode_table.json: the table gives no row any bits, so no word spells a
step, and there is nothing else to decode. (The packets that carry commands are decoded by the return-lane
receiver, Machine/Channel.lean.) -/

namespace Sys2Proof

/-- The step that an instruction word spells by the table's bits: none, for the table gives no bits. -/
def decodeTableWord (_nbits _w : Nat) : Option Instr := none

end Sys2Proof
end

