-- ==== Sys2Proof/Config.lean ====
section
/-! DEFINITION. What the part fixes once and for all: sizes, durations and fallback numbers (spec 00,
Numbers at a glance, and the rule named with each). The spec leaves no value free, so there is no free
constant here. Durations are in microseconds. -/

namespace Sys2Proof.Config

/-- Pixels of a camera line (spec 00). -/
def sensorWidth : Nat := 1920

/-- Active lines of a camera frame (spec 00). -/
def sensorHeight : Nat := 1280

/-- The largest 20-bit luminance (R32 to R36). -/
def lumaMax : Nat := 1048575

/-- Columns of a view's region (spec 00, The output frame). -/
def regionWidth : Nat := 1280

/-- Words of one bank of all kinds together (R156). -/
def bankWords : Nat := 274

/-- Words of the table RAM (R156). -/
def ramWords : Nat := 548

/-- The clearing of the table RAM (R176). -/
def clearingTime : Nat := 2000

/-- The interval between scrubber visits (R173). -/
def scrubInterval : Nat := 50

/-- The length of a pulse (R121). -/
def pulseTime : Nat := 500000

/-- The time limit of a self-test step (R144 to R149). -/
def stepTime : Nat := 200000

/-- The length of an IMMEDIATE reference pass (R47). -/
def immediatePassTime : Nat := 12000

/-- A stamp is emptied after this time (R21, R60). -/
def stampLife : Nat := 2147483648

/-- The shortest output period the displays accept (R69). -/
def outputPeriodMin : Nat := 15000

/-- The longest output period the displays accept (R69). -/
def outputPeriodMax : Nat := 20000

/-- The fallback nominal output period (R69). -/
def fallbackNominal : Nat := 16667

/-- The packet timeout after a reset, in ms (R182, R191). -/
def packetTimeoutMs : Nat := 20

/-- Commands a link's command queue holds (R185). -/
def queueLimit : Nat := 4

/-- Commands and undelivered responses of a link (R185). -/
def linkLimit : Nat := 8

/-- Responses in one trailer (R189). -/
def responsesPerTrailer : Nat := 4

/-- Fault records the log holds (R136). -/
def logLimit : Nat := 32

/-- Candidates a tracker keeps (R81). -/
def candidateLimit : Nat := 8

/-- The largest step of the backlight level at an output frame start (R114). -/
def backlightStep : Nat := 8

/-- The backlight target while LIGHT is not usable, and the level after power-on (R111, R115). -/
def backlightDefault : Nat := 512

/-- The hold-off time while POLICY is not usable, in ms (R129). -/
def fallbackHoldOffMs : Nat := 100

/-- The silent timeout while TIMING is not usable, in ms (R6, R160). -/
def fallbackSilentMs : Nat := 200

/-- The telemetry timeout while TIMING is not usable, in ms (R100, R160). -/
def fallbackTelemetryMs : Nat := 500

/-- A timing value that is absent is reported as this (R25). -/
def absentValue : Word := 0xFFFFFFFF#32

end Sys2Proof.Config
end

