-- ==== Sys2Proof/Machine/State.lean ====
section
/-! DEFINITION. Everything the part holds, as plain data. The default value of each field is its value after
power-on (spec rule named with the structure), so that `State.reset` is the machine right after power-on.
Device times are 32 bits (`Time`); instants at which a timer runs out or an output start falls due are
counted in microseconds since power-on (log 1). -/

namespace Sys2Proof.Machine

/-- The part never stops: every failure the spec describes is a condition or an event of the fault manager
(chapter 6). No step raises a fault, so there is none. -/
inductive Fault where
deriving DecidableEq, Repr

/-- Why a step has no meaning. -/
inductive Refusal where
  /-- Raised by an arm of `exec` that has no meaning yet, with the row's mnemonic; no arm uses it. Safe. -/
  | notModelled (mnemonic : String)
deriving DecidableEq, Repr

/-- The device mode (10.2, R198). -/
inductive Mode where
  | config
  | run
deriving DecidableEq, Repr

/-! ### Camera Ingest (chapter 1) -/

/-- The link state (R2). -/
inductive LinkState where
  | noSignal
  | locked
deriving DecidableEq, Repr

/-- The treatment of a frame (1.1). -/
inductive Treatment where
  | undecided
  | accepted
  | stalled
  | unexpected
  | pattern
  | slot
deriving DecidableEq, Repr

/-- The profile values that ingest latches (R6). -/
structure IngestProfile where
  expectedId : Half
  idCheck : Bool
  frozenCount : Nat
  lineErrorLimit : Nat
deriving DecidableEq, Repr

/-- The TIMING values that ingest latches (R6). -/
structure IngestTiming where
  periodMin : Nat
  periodMax : Nat
  silentMs : Nat
deriving DecidableEq, Repr

/-- The frame record (1.1). `lastLine` is the latest active line as passed on (R15); `slotEligible` says that a
slot request was already held when the frame started (R11). -/
structure FrameRecord where
  start : Time
  treatment : Treatment
  developed : Bool
  counter : Option Byte
  cameraId : Option Half
  nextLine : Nat
  concealed : Nat
  profile : IngestProfile
  timing : IngestTiming
  signature : Half
  lastLine : List Code
  slotEligible : Bool
deriving DecidableEq, Repr

/-- One CI instance (1.1, R26). The reception state is RECEIVING while there is a frame record.
`silentDue` is the instant the silent timer runs out, `none` when it has expired. `sentRequests` are the
test-pattern requests sent to the camera (R4), oldest first. -/
structure Ingest where
  link : LinkState := .noSignal
  frame : Option FrameRecord := none
  expected : Option Byte := none
  lastSignature : Option Half := none
  identicalRun : Nat := 0
  prevStart : Option Time := none
  lastPeriod : Option Word := none
  lastActive : Option Word := none
  patternPending : Bool := false
  slotHeld : Bool := false
  silentDue : Option Nat := some (Config.fallbackSilentMs * 1000)
  sentRequests : List Bool := []
deriving DecidableEq, Repr

/-! ### Development Core (chapter 2) -/

/-- The curve used (R28, R29). -/
inductive CurveUsed where
  | day
  | night
  | fallback
deriving DecidableEq, Repr

/-- The development fields of a camera profile (R28). -/
structure DevProfile where
  c1 : Nat
  c2 : Nat
  c3 : Nat
  g0 : Nat
  g1 : Nat
  g2 : Nat
  g3 : Nat
  black : Nat
  gainR : Nat
  gainG : Nat
  gainB : Nat
deriving DecidableEq, Repr

/-- The knots of a tone curve or a dimming curve, in order (R39, R111). -/
abbrev Curve := List (Nat × Nat)

/-- A view window (R30). -/
structure Window where
  scale : Nat
  x0 : Nat
  y0 : Nat
  flip : Bool
deriving DecidableEq, Repr

/-- The GLARE fields that the core latches (R28). -/
structure DevGlare where
  knee : Nat
  feather : Nat
  hot : Nat
  cellThreshold : Nat
deriving DecidableEq, Repr

/-- A dimming zone: a pixel rectangle and an attenuation (R31). -/
structure Zone where
  x0 : Nat
  y0 : Nat
  x1 : Nat
  y1 : Nat
  attenuation : Nat
deriving DecidableEq, Repr

/-- The working copies of a pass (R28). `dayCurve` is the DAY curve of the same reading of TONE (R46). -/
structure WorkingCopies where
  profile : DevProfile
  curve : Curve
  dayCurve : Curve
  curveUsed : CurveUsed
  toneGeneration : Nat
  mainWindow : Window
  wideWindow : Window
  glare : DevGlare
  zones : List Zone
deriving DecidableEq, Repr

/-- The pass record of a camera pass: working copies, the hot-pixel count of each cell in raster order (R42),
the sample luminances so far (R43), and the black-corrected samples of the two latest rows, which
demosaicing still needs (R34). -/
structure CameraPass where
  copies : WorkingCopies
  hotCounts : List Nat
  samples : List Nat
  older : List Nat
  newer : List Nat
deriving DecidableEq, Repr

/-- The pacing of a reference pass (R46); an IMMEDIATE pass carries the instant it began (R47). -/
inductive Pacing where
  | paced
  | immediate (began : Nat)
deriving DecidableEq, Repr

/-- The pass record of a reference pass: working copies, pacing, and what it has accumulated (R47). -/
structure ReferencePass where
  copies : WorkingCopies
  pacing : Pacing
  signature : Half
  image : Picture
deriving DecidableEq, Repr

/-- The pass state with its pass record (2.1). -/
inductive Pass where
  | idle
  | camera (p : CameraPass)
  | reference (p : ReferencePass)
deriving DecidableEq, Repr

/-! ### Glare Tracker (chapter 4) -/

/-- A rectangle of cells (R80, R83). -/
structure Box where
  x0 : Nat
  x1 : Nat
  y0 : Nat
  y1 : Nat
deriving DecidableEq, Repr

/-- A candidate (R80); its index is its place in the list. -/
structure Candidate where
  box : Box
  cells : Nat
  qx : Nat
  qy : Nat
  oversize : Bool
deriving DecidableEq, Repr

/-- The state of a track (R83). -/
inductive TrackState where
  | free
  | tentative
  | confirmed
  | coasting
  | releasing
deriving DecidableEq, Repr

/-- A track record (R83). Bit 0 of `history` is the newest entry. The defaults are a FREE slot as it is
reported. -/
structure Track where
  state : TrackState := .free
  id : Byte := 0
  qx : Nat := 0
  qy : Nat := 0
  vx : Int := 0
  vy : Int := 0
  box : Box := ⟨0, 0, 0, 0⟩
  history : Byte := 0
  misses : Nat := 0
  attenuation : Nat := 256
  target : Nat := 0
deriving DecidableEq, Repr

/-- One GT instance (4.1, R98). -/
structure Glare where
  tracks : Vector Track 6 := Vector.replicate 6 ({} : Track)
  candidates : List Candidate := []
  idCounter : Byte := 0
  zones : List Zone := []
  hotTotal : Nat := 0
  running : Bool := false
  droppedComponents : Nat := 0
  droppedCandidates : Nat := 0
deriving DecidableEq, Repr

/-! ### Frame Store and the views (chapter 3) -/

/-- The state of a frame buffer (R49). -/
inductive BufferStatus where
  | free
  | filling
  | ready
  | shown
deriving DecidableEq, Repr

/-- A buffer record (R49). -/
structure BufferRecord where
  capture : Time
  counter : Option Byte
  curveUsed : CurveUsed
  zoneCount : Nat
  toneGeneration : Nat
deriving DecidableEq, Repr

/-- A frame buffer: its state, its record, and the picture that lies in the DDR memory. -/
structure Buffer where
  status : BufferStatus := .free
  record : Option BufferRecord := none
  picture : Picture := []
deriving DecidableEq, Repr

/-- The ring of a view (R49, R51). -/
structure Ring where
  b0 : Buffer := {}
  b1 : Buffer := {}
  b2 : Buffer := {}
  superseded : Nat := 0
deriving DecidableEq, Repr

/-- The state of a view (3.3). -/
inductive ViewState where
  | notReady
  | live
  | holding
  | lost
deriving DecidableEq, Repr

/-- A reaction (R116, R134). -/
inductive Reaction where
  | none
  | warn
  | degrade
deriving DecidableEq, Repr

/-- What a region of the current output frame shows (R66): the mid-grey NOTREADY display, the LOST display, a
picture whose read is in progress, or a picture; `warn` puts the warning tile over it. -/
inductive Region where
  | grey
  | lost
  | reading (picture : Picture) (warn : Bool)
  | shows (picture : Picture) (warn : Bool)
deriving DecidableEq, Repr

/-- The VIEW values the composer latches for a view (R59). -/
structure ViewLimits where
  holdMs : Nat := 100
  recoveryFrames : Nat := 5
  latencyLimit : Nat := 100000
deriving DecidableEq, Repr

/-- What the part keeps for one view (3.1 to 3.5, R74). `region` is `none` until the first output frame. -/
structure ViewUnit where
  ring : Ring := {}
  originX : Nat := 0
  originY : Nat := 0
  state : ViewState := .notReady
  reaction : Reaction := .none
  recovery : Nat := 0
  latency : Option Word := none
  limits : ViewLimits := {}
  region : Option Region := none
deriving DecidableEq, Repr

/-- A transfer of the self-test buffer (R56). `owned` says that the run in progress asked for it and takes
notice of its end (R153). -/
inductive Transfer where
  | write (image : Picture) (owned : Bool)
  | read (owned : Bool)
deriving DecidableEq, Repr

/-- The self-test buffer of a side (R56): `content` is `none` when EMPTY; the first transfer is in progress,
the others wait. -/
structure SelfTestBuffer where
  content : Option Picture := none
  transfers : List Transfer := []
deriving DecidableEq, Repr

/-! ### Output Composer (3.6, chapter 9) -/

/-- The output timing state (R69). -/
inductive TimingState where
  | free
  | tracking
deriving DecidableEq, Repr

/-- The latched output timing (R69). -/
structure OutputTiming where
  track : Bool := false
  nominal : Nat := Config.fallbackNominal
  lead : Nat := 0
deriving DecidableEq, Repr

/-- Which views an entry of the policy selects (R131). -/
inductive ViewSelect where
  | main
  | wide
  | both
deriving DecidableEq, Repr

/-- A valid entry of the policy (R131). `source` is `none` for ANY. -/
structure PolicyEntry where
  source : Option Nat
  kindValue : Nat
  kindMask : Nat
  select : ViewSelect
  reaction : Reaction
deriving DecidableEq, Repr

/-- The output composer of a display (R69, R74, R193). Instants are microseconds since power-on. `policy`
holds the valid entries of the latched table, in index order. -/
structure Composer where
  timing : TimingState := .free
  latched : OutputTiming := {}
  inWindow : Nat := 0
  pendingEnd : Option Nat := none
  prevOut : Option Nat := none
  nextOut : Nat := Config.fallbackNominal
  period : Option Word := none
  completion : Option Time := none
  policy : List PolicyEntry := []
  frameNumber : Half := 0
  trailer : List Byte := []
deriving DecidableEq, Repr

/-! ### Light Controller (chapter 5) -/

/-- The day/night state (5.1). -/
inductive DayNight where
  | day
  | night
deriving DecidableEq, Repr

/-- The force setting (5.1). -/
inductive Force where
  | auto
  | day
  | night
deriving DecidableEq, Repr

/-- The qualification phase with its phase start (5.1, R105 to R107). -/
inductive Phase where
  | idle
  | debouncing (start : Nat)
  | validating (start : Nat)
deriving DecidableEq, Repr

/-- One LC instance (5.1, R115). `ambientDue` is the instant the ambient timer runs out, `none` when it has
expired. `holdPassed` says that the hold time has been found passed at an output frame start (R113). -/
structure Light where
  dayNight : DayNight := .day
  force : Force := .auto
  phase : Phase := .idle
  ambient : Nat := 0
  known : Bool := false
  ambientDue : Option Nat := none
  stale : Option Nat := some 0
  holdPassed : Bool := false
  status : Byte := 0
  backlight : Nat := Config.backlightDefault
deriving DecidableEq, Repr

/-! ### Self-Test Sequencer (chapter 7) -/

/-- One value for each self-test step. -/
structure PerStep (α : Type) where
  link : α
  ident : α
  pattern : α
  develop : α
  store : α
deriving DecidableEq, Repr

/-- The outcome of a step (7.1). -/
inductive StepOutcome where
  | pass
  | fail
  | omitted
  | notSelected
deriving DecidableEq, Repr

/-- A run in progress (7.1). `timerDue` is the instant the step timer runs out, `none` when it is not running. -/
structure Run where
  step : Step
  selection : PerStep Bool
  outcomes : PerStep (Option StepOutcome)
  failures : PerStep Bool
  timerDue : Option Nat
  startsSeen : Nat
  reference : Option Half
  image : Option Picture
  writeSig : Option Half
deriving DecidableEq, Repr

/-- One SQ instance (7.1, R154). The run state is IDLE while `run` is `none`. -/
structure Sequencer where
  run : Option Run := none
  failFlags : PerStep Bool := ⟨false, false, false, false, false⟩
  last : PerStep StepOutcome := ⟨.notSelected, .notSelected, .notSelected, .notSelected, .notSelected⟩
deriving DecidableEq, Repr

/-! ### Command Channel (chapter 9) -/

/-- A receiver (R180, R182): `buffer` holds the bytes after LEN; `due` is the instant the packet timer runs
out, `none` when it is not armed. -/
inductive Receiver where
  | waitLen
  | collecting (len : Nat) (buffer : List Byte) (due : Option Nat)
deriving DecidableEq, Repr

/-- A command in a command queue (R185). -/
structure Command where
  tag : Byte
  kind : Byte
  param : List Byte
deriving DecidableEq, Repr

/-- A response (R188); `kind` is the response's KIND. -/
structure Response where
  tag : Byte
  kind : Byte
  status : Byte
  param : List Byte
deriving DecidableEq, Repr

/-- The channel of one display link (R191). -/
structure Link where
  receiver : Receiver := .waitLen
  timeoutMs : Nat := Config.packetTimeoutMs
  queue : List Command := []
  responses : List Response := []
  discards : Byte := 0
deriving DecidableEq, Repr

/-- The executor (R186). RESET_PENDING keeps the link that sent the SOFT_RESET (R190). -/
inductive Executor where
  | idle
  | executing
  | resetPending (link : Side)
deriving DecidableEq, Repr

/-! ### Fault Manager (chapter 6) -/

/-- A fault record (R135); source, kind and view are those of the descriptor. -/
structure FaultRecord where
  sequence : Half
  time : Time
  descriptor : Descriptor
  detail : List Word
  lost : Nat
deriving DecidableEq, Repr

/-- The fault manager (R139, R141). Bit i of `flags`, `enables` and `conditions` stands for the descriptor of
index i (R211), and `pulses[i]` is the instant its pulse timer runs out. The defaults are the state after
power-on with its five occurrences taken: RESET_SEEN (50), LINK_LOST of both sides (0, 13) and
TELEMETRY_LOST of both sides (38, 43). -/
structure FaultManager where
  flags : BitVec 51 := 0x4084000002001#51
  enables : BitVec 51 := BitVec.allOnes 51
  conditions : BitVec 51 := 0x84000002001#51
  pulses : Vector (Option Nat) 51 := (Vector.replicate 51 none).setIfInBounds 50 (some Config.pulseTime)
  holdOff : Option Nat := none
  log : List FaultRecord :=
    [⟨0, 0, .core .resetSeen, [1], 0⟩, ⟨1, 0, .cam .left .linkLost, [], 0⟩, ⟨2, 0, .cam .right .linkLost, [], 0⟩,
      ⟨3, 0, .disp .left .telemetryLost, [], 0⟩, ⟨4, 0, .disp .right .telemetryLost, [], 0⟩]
  nextSequence : Half := 5
  lost : Nat := 0
deriving DecidableEq, Repr

/-! ### Table Store (chapter 8) -/

/-- A word of the table RAM (R156): the data last written, and the bits (0..31 data, 32..38 check) that
differ now from what was written. -/
structure TableWord where
  data : Word := 0
  flips : BitVec 39 := 0
deriving DecidableEq, Repr

/-- A sync copy in progress (R168): the instant of the commit and the offset of the next word to copy. -/
structure SyncCopy where
  committed : Nat
  next : Nat
deriving DecidableEq, Repr

/-- A kind record (R158). The shadow state is SYNCING while `sync` is some. -/
structure KindRecord where
  live : Bank := .bankA
  generation : Nat := 0
  sync : Option SyncCopy := none
  corrupt : Bool := false
  locked : Bool := false
deriving DecidableEq, Repr

/-- The table store (R156 to R161, R173, R176). `ram` lists the words that differ from the clean zero word, by
rising address. `corruptions` is the corruption list. `scrubDue` is the instant of the next visit, `none`
while the RAM is being cleared. -/
structure TableStore where
  ram : List (Nat × TableWord) := []
  kinds : Vector KindRecord 8 := Vector.replicate 8 ({} : KindRecord)
  corruptions : List (Kind × Nat) := []
  scrubPosition : Nat := 0
  scrubDue : Option Nat := none
deriving DecidableEq, Repr

/-! ### The part -/

/-- The blocks of one side (spec 00, Block overview). -/
structure SideUnit where
  ingest : Ingest := {}
  pass : Pass := .idle
  glare : Glare := {}
  main : ViewUnit := {}
  wide : ViewUnit := { originY := 848 }
  buffer : SelfTestBuffer := {}
  composer : Composer := {}
  light : Light := {}
  sequencer : Sequencer := {}
  channel : Link := {}
deriving DecidableEq, Repr

/-- The state of the part. `clock` counts the microseconds since power-on; device time is its low 32 bits
(R1). `latestStartL` is CI-L's latest frame start stamp (R21). `pending` is the queue of steps that wait. -/
structure State where
  clock : Nat := 0
  clearing : Bool := true
  mode : Mode := .config
  left : SideUnit := {}
  right : SideUnit := {}
  latestStartL : Option Time := none
  skew : Option Word := none
  faults : FaultManager := {}
  tables : TableStore := {}
  executor : Executor := .idle
  lastServed : Side := .right
  pending : List Instr := []
deriving DecidableEq, Repr

/-- The machine right after power-on (R26, R48, R74, R98, R115, R139, R141, R154, R176, R191). -/
def State.reset : State := {}

end Sys2Proof.Machine
end

