-- ==== Sys2Proof/Machine/Ops.lean ====
section
/-! DEFINITION. Device time, access to the blocks of a side, and the little arithmetic shared by all blocks:
byte order, bit fields, clamps, the CRC-16 (spec 00, Conventions, R1). -/

namespace Sys2Proof

/-- The other side. -/
def Side.other : Side → Side
  | .left => .right
  | .right => .left

/-- The code of a side in commands: 0 for L, 1 for R (R195). -/
def Side.code : Side → Nat
  | .left => 0
  | .right => 1

/-- The side of a view (spec 00, Views). -/
def View.side : View → Side
  | .leftMain | .leftWide => .left
  | .rightMain | .rightWide => .right

/-- Whether a view is a MAIN view. -/
def View.isMain : View → Bool
  | .leftMain | .rightMain => true
  | .leftWide | .rightWide => false

/-- The view index 0..3 (spec 00, Views). -/
def View.index : View → Nat
  | .leftMain => 0
  | .leftWide => 1
  | .rightMain => 2
  | .rightWide => 3

/-- The MAIN view of a side. -/
def Side.mainView : Side → View
  | .left => .leftMain
  | .right => .rightMain

/-- The WIDE view of a side. -/
def Side.wideView : Side → View
  | .left => .leftWide
  | .right => .rightWide

/-- The rows of a view's region: 512 for MAIN, 288 for WIDE (spec 00, The output frame). -/
def View.rows (v : View) : Nat := if v.isMain then 512 else 288

/-- The height of a view's window in units of the scale: 16 for MAIN, 9 for WIDE (R30). -/
def View.heightFactor (v : View) : Nat := if v.isMain then 16 else 9

end Sys2Proof

namespace Sys2Proof.Machine

/-! ### Device time -/

/-- The device time of the state (spec 00, Device time). -/
def State.now (s : State) : Time := BitVec.ofNat 32 s.clock

/-- Device time moves on to `t`: the difference of two device times is taken modulo 2^32. -/
def State.advance (s : State) (t : Time) : State := { s with clock := s.clock + (t - s.now).toNat }

/-- The time from one device time to a later one, modulo 2^32 (R1). -/
def since (earlier later : Time) : Word := later - earlier

/-- A measured difference as it is stored: 0xFFFFFFFF is kept for an absent value (R25). -/
def measured (w : Word) : Word := if w = Config.absentValue then 0xFFFFFFFE#32 else w

/-- A value that may be absent, as it is reported (R25, R68). -/
def reported (v : Option Word) : Word := v.getD Config.absentValue

/-- Whether a timer that runs out at `due` has run out by `clock`; a timer that is not running has not. -/
def timeUp (due : Option Nat) (clock : Nat) : Bool :=
  match due with
  | some d => decide (d ≤ clock)
  | none => false

/-! ### The blocks of a side -/

/-- The blocks of a side. -/
def State.unit (s : State) : Side → SideUnit
  | .left => s.left
  | .right => s.right

/-- Change the blocks of a side. -/
def State.modUnit (s : State) (side : Side) (f : SideUnit → SideUnit) : State :=
  match side with
  | .left => { s with left := f s.left }
  | .right => { s with right := f s.right }

/-- Change the ingest of a side. -/
def State.modIngest (s : State) (side : Side) (f : Ingest → Ingest) : State :=
  s.modUnit side fun u => { u with ingest := f u.ingest }

/-- Set the pass of a side's development core. -/
def State.setPass (s : State) (side : Side) (p : Pass) : State :=
  s.modUnit side fun u => { u with pass := p }

/-- Change the glare tracker of a side. -/
def State.modGlare (s : State) (side : Side) (f : Glare → Glare) : State :=
  s.modUnit side fun u => { u with glare := f u.glare }

/-- Change the output composer of a side. -/
def State.modComposer (s : State) (side : Side) (f : Composer → Composer) : State :=
  s.modUnit side fun u => { u with composer := f u.composer }

/-- Change the light controller of a side. -/
def State.modLight (s : State) (side : Side) (f : Light → Light) : State :=
  s.modUnit side fun u => { u with light := f u.light }

/-- Change the self-test sequencer of a side. -/
def State.modSequencer (s : State) (side : Side) (f : Sequencer → Sequencer) : State :=
  s.modUnit side fun u => { u with sequencer := f u.sequencer }

/-- Change the self-test buffer of a side. -/
def State.modBuffer (s : State) (side : Side) (f : SelfTestBuffer → SelfTestBuffer) : State :=
  s.modUnit side fun u => { u with buffer := f u.buffer }

/-- Change the channel of a display link. -/
def State.modChannel (s : State) (link : Side) (f : Link → Link) : State :=
  s.modUnit link fun u => { u with channel := f u.channel }

/-- What the part keeps for a view. -/
def State.view (s : State) (v : View) : ViewUnit :=
  if v.isMain then (s.unit v.side).main else (s.unit v.side).wide

/-- Change what the part keeps for a view. -/
def State.modView (s : State) (v : View) (f : ViewUnit → ViewUnit) : State :=
  s.modUnit v.side fun u => if v.isMain then { u with main := f u.main } else { u with wide := f u.wide }

/-- Change both views of a side. -/
def State.modViews (s : State) (side : Side) (f : ViewUnit → ViewUnit) : State :=
  s.modUnit side fun u => { u with main := f u.main, wide := f u.wide }

/-! ### Numbers, bytes and bit fields -/

/-- Bits `lo .. lo + n - 1` of a word as a number (R178). -/
def bits (w : Word) (lo n : Nat) : Nat := (w.toNat >>> lo) % 2 ^ n

/-- Bit `i` of a word. -/
def flag (w : Word) (i : Nat) : Bool := w.getLsbD i

/-- The value as one byte. -/
def byte1 (n : Nat) : List Byte := [BitVec.ofNat 8 n]

/-- The value as two bytes, least significant first (R179). -/
def bytes2 (n : Nat) : List Byte := [BitVec.ofNat 8 n, BitVec.ofNat 8 (n / 256)]

/-- The value as four bytes, least significant first (R179). -/
def bytes4 (n : Nat) : List Byte :=
  [BitVec.ofNat 8 n, BitVec.ofNat 8 (n / 256), BitVec.ofNat 8 (n / 65536), BitVec.ofNat 8 (n / 16777216)]

/-- A 51-bit set of descriptors as a descriptor map of 7 bytes (R211). -/
def mapBytes (m : BitVec 51) : List Byte := (List.range 7).map fun i => BitVec.ofNat 8 (m.toNat / 256 ^ i)

/-- The number that bytes spell, least significant first. -/
def numberOf : List Byte → Nat
  | [] => 0
  | b :: bs => b.toNat + 256 * numberOf bs

/-- 1 for true, 0 for false. -/
def bitOf (b : Bool) : Nat := if b then 1 else 0

/-- Increase by one up to a largest value. -/
def bump (n top : Nat) : Nat := min (n + 1) top

/-- An integer clamped into `lo .. hi`. -/
def clampInt (lo hi x : Int) : Int := max lo (min hi x)

/-- An integer clamped into `0 .. hi`, as a natural number. -/
def clampNat (hi : Nat) (x : Int) : Nat := (clampInt 0 hi x).toNat

/-! ### CRC-16 -/

/-- One bit of the CRC-16: polynomial x^16 + x^12 + x^5 + 1, most significant bit first (spec 00, CRC-16). -/
def crcBit (crc : Half) : Half := if crc.msb then (crc <<< 1) ^^^ 0x1021#16 else crc <<< 1

/-- Feed one byte to the CRC-16. -/
def crcByte (crc : Half) (b : Byte) : Half :=
  crcBit (crcBit (crcBit (crcBit (crcBit (crcBit (crcBit (crcBit
    (crc ^^^ (b.zeroExtend 16 <<< 8)))))))))

/-- Feed bytes to the CRC-16, in order. -/
def crcFeed (crc : Half) (bs : List Byte) : Half := bs.foldl crcByte crc

/-- The initial value of the CRC-16. -/
def crcInit : Half := 0xFFFF#16

/-- The CRC-16 of bytes. -/
def crc16 (bs : List Byte) : Half := crcFeed crcInit bs

/-- A value of at most 16 bits as it is fed to the CRC: two bytes, high byte first. -/
def crcPair (n : Nat) : List Byte := [BitVec.ofNat 8 (n / 256), BitVec.ofNat 8 n]

/-- Feed one output pixel: out_R, out_G, out_B, each as two bytes, high byte first (R47, R149). -/
def crcPixel (crc : Half) (p : Rgb) : Half :=
  crcFeed crc (crcPair p.r.toNat ++ crcPair p.g.toNat ++ crcPair p.b.toNat)

end Sys2Proof.Machine
end

