-- ==== Sys2Proof/Machine/Flags.lean ====
section
/-! DEFINITION. The fault manager (chapter 6): descriptors and their codes, occurrences, condition copies,
pulses, event flags, the summary, attention, and the fault log. -/

namespace Sys2Proof

/-- The kind code of a camera kind (R117). -/
def CamKind.code : CamKind → Nat
  | .linkLost => 0x01
  | .lineCrc => 0x02
  | .frameAbort => 0x03
  | .counterStall => 0x04
  | .counterSkip => 0x05
  | .frozen => 0x06
  | .cameraId => 0x07
  | .cameraReported => 0x08
  | .period => 0x09
  | .silent => 0x0A
  | .glareOverload => 0x0B
  | .selftestDone => 0x0C
  | .selftestFail => 0x0D

/-- The kind code of a view kind (R117). -/
def ViewKind.code : ViewKind → Nat
  | .latency => 0x10
  | .viewLost => 0x11
  | .ddrError => 0x12

/-- The kind code of a display kind (R117). -/
def DispKind.code : DispKind → Nat
  | .telemetryLost => 0x20
  | .displayReported => 0x21
  | .returnFraming => 0x22
  | .returnCrc => 0x23
  | .commandDiscard => 0x24

/-- The kind code of a CORE kind (R117). -/
def CoreKind.code : CoreKind → Nat
  | .tableSec => 0x30
  | .tableDed => 0x31
  | .resetSeen => 0x32

/-- The source code of a descriptor: CAM_L 0, CAM_R 1, DISP_L 2, DISP_R 3, CORE 4 (R116). -/
def Descriptor.source : Descriptor → Nat
  | .cam s _ => s.code
  | .view v _ => v.side.code
  | .disp s _ => 2 + s.code
  | .core _ => 4

/-- The kind code of a descriptor (R117). -/
def Descriptor.kind : Descriptor → Nat
  | .cam _ k => k.code
  | .view _ k => k.code
  | .disp _ k => k.code
  | .core k => k.code

/-- The view of a descriptor, for the view kinds alone (R116). -/
def Descriptor.viewIndex : Descriptor → Option Nat
  | .view v _ => some v.index
  | _ => none

/-- The descriptor index (R211). -/
def Descriptor.indexNat : Descriptor → Nat
  | .cam s k => 13 * s.code + (k.code - 1)
  | .view v k => 26 + 3 * v.index + (k.code - 0x10)
  | .disp s k => 38 + 5 * s.code + (k.code - 0x20)
  | .core k => 48 + (k.code - 0x30)

/-- The descriptor index, 0..50 (R211). -/
def Descriptor.index (d : Descriptor) : Fin 51 :=
  ⟨d.indexNat, by
    cases d with
    | cam s k => cases s <;> cases k <;> decide
    | view v k => cases v <;> cases k <;> decide
    | disp s k => cases s <;> cases k <;> decide
    | core k => cases k <;> decide⟩

/-- The camera kinds in code order. -/
def camKinds : List CamKind :=
  [.linkLost, .lineCrc, .frameAbort, .counterStall, .counterSkip, .frozen, .cameraId, .cameraReported, .period,
    .silent, .glareOverload, .selftestDone, .selftestFail]

/-- The display kinds in code order. -/
def dispKinds : List DispKind := [.telemetryLost, .displayReported, .returnFraming, .returnCrc, .commandDiscard]

/-- The four views in index order. -/
def allViews : List View := [.leftMain, .leftWide, .rightMain, .rightWide]

/-- The 51 descriptors in index order (R211). -/
def allDescriptors : List Descriptor :=
  camKinds.map (.cam .left) ++ camKinds.map (.cam .right) ++
    allViews.flatMap (fun v => [.view v .latency, .view v .viewLost, .view v .ddrError]) ++
    dispKinds.map (.disp .left) ++ dispKinds.map (.disp .right) ++
    [.core .tableSec, .core .tableDed, .core .resetSeen]

/-- The views a descriptor concerns (R116). -/
def Descriptor.concerns (d : Descriptor) (v : View) : Bool :=
  match d with
  | .cam s _ => v.side == s
  | .view w _ => v == w
  | .disp s _ => v.side == s
  | .core _ => true

/-- The default reaction of a descriptor's kind (R117). -/
def Descriptor.defaultReaction : Descriptor → Machine.Reaction
  | .cam _ .linkLost | .cam _ .frozen | .cam _ .cameraId | .cam _ .silent => .degrade
  | .cam _ .counterStall | .cam _ .cameraReported | .cam _ .period | .cam _ .glareOverload => .warn
  | .cam _ .lineCrc | .cam _ .frameAbort | .cam _ .counterSkip | .cam _ .selftestDone | .cam _ .selftestFail => .none
  | .view _ .latency => .warn
  | .view _ .viewLost | .view _ .ddrError => .none
  | .disp _ .telemetryLost | .disp _ .displayReported => .warn
  | .disp _ .returnFraming | .disp _ .returnCrc | .disp _ .commandDiscard => .none
  | .core .tableDed => .warn
  | .core .tableSec | .core .resetSeen => .none

end Sys2Proof

namespace Sys2Proof.Machine

/-! ### Sets of descriptors -/

/-- Whether a descriptor is in a set. -/
def inSet (m : BitVec 51) (d : Descriptor) : Bool := m.getLsbD d.index.val

/-- The set of one descriptor. -/
def single (d : Descriptor) : BitVec 51 := BitVec.twoPow 51 d.index.val

/-- Put a descriptor into a set. -/
def withD (m : BitVec 51) (d : Descriptor) : BitVec 51 := m ||| single d

/-- Take a descriptor out of a set. -/
def withoutD (m : BitVec 51) (d : Descriptor) : BitVec 51 := m &&& ~~~(single d)

/-! ### Occurrences -/

/-- A record for a flag set from clear: stored at the tail with the next sequence number, or refused when the
log holds 32 records (R136). -/
def FaultManager.append (fm : FaultManager) (now : Time) (d : Descriptor) (detail : List Word) : FaultManager :=
  if fm.log.length < Config.logLimit then
    { fm with
      log := fm.log ++ [⟨fm.nextSequence, now, d, detail, fm.lost⟩]
      nextSequence := fm.nextSequence + 1
      lost := 0 }
  else { fm with lost := bump fm.lost 255 }

/-- FM takes an occurrence: it looks at the descriptor's enable and flag (R123). -/
def FaultManager.occur (fm : FaultManager) (now : Time) (d : Descriptor) (detail : List Word) : FaultManager :=
  if inSet fm.enables d && !inSet fm.flags d then
    { fm with flags := withD fm.flags d }.append now d detail
  else fm

/-- A *became active* report (R119). -/
def FaultManager.becameActive (fm : FaultManager) (now : Time) (d : Descriptor) (detail : List Word) :
    FaultManager :=
  if inSet fm.conditions d then fm
  else { fm with conditions := withD fm.conditions d }.occur now d detail

/-- A *became inactive* report (R119). -/
def FaultManager.becameInactive (fm : FaultManager) (d : Descriptor) : FaultManager :=
  { fm with conditions := withoutD fm.conditions d }

/-- A *happened* report of an event-only kind: it starts the pulse timer and is an occurrence (R121). -/
def FaultManager.happened (fm : FaultManager) (clock : Nat) (d : Descriptor) (detail : List Word) : FaultManager :=
  { fm with pulses := fm.pulses.set d.index.val (some (clock + Config.pulseTime)) d.index.isLt }.occur
    (BitVec.ofNat 32 clock) d detail

/-- Whether a descriptor is in the active set: its condition copy is active or its pulse is (R134). -/
def FaultManager.active (fm : FaultManager) (d : Descriptor) : Bool :=
  inSet fm.conditions d || (fm.pulses[d.index.val]'d.index.isLt).isSome

/-- A block reports a condition as active. -/
def State.activate (s : State) (d : Descriptor) (detail : List Word) : State :=
  { s with faults := s.faults.becameActive s.now d detail }

/-- A block reports a condition as inactive. -/
def State.deactivate (s : State) (d : Descriptor) : State :=
  { s with faults := s.faults.becameInactive d }

/-- A block reports that an event-only kind happened. -/
def State.raise (s : State) (d : Descriptor) (detail : List Word) : State :=
  { s with faults := s.faults.happened s.clock d detail }

/-- A block reports the level of a condition: active with a detail, or inactive. -/
def State.level (s : State) (d : Descriptor) (on : Bool) (detail : List Word) : State :=
  if on then s.activate d detail else s.deactivate d

/-- The pulse timer of a descriptor runs out (R121). -/
def FaultManager.endPulse (fm : FaultManager) (clock : Nat) (d : Descriptor) : FaultManager :=
  if timeUp (fm.pulses[d.index.val]'d.index.isLt) clock then
    { fm with pulses := fm.pulses.set d.index.val none d.index.isLt }
  else fm

/-! ### Summary and attention -/

/-- The flags of the six groups of the event summary (R125). -/
def summaryGroups : List Nat :=
  [0x1FFF, 0x1FFF * 2 ^ 13, 0xFFF * 2 ^ 26, 0x1F * 2 ^ 38, 0x1F * 2 ^ 43, 0x7 * 2 ^ 48]

/-- The event summary: bit g is 1 when a flag of group g is set (R125). -/
def FaultManager.summary (fm : FaultManager) : Nat :=
  (summaryGroups.zipIdx.map fun (m, i) => bitOf (fm.flags &&& BitVec.ofNat 51 m != 0) * 2 ^ i).sum

/-- The attention bit (R130). -/
def FaultManager.attention (fm : FaultManager) : Bool := fm.holdOff.isNone && (fm.flags &&& fm.enables) != 0

/-- The active set as a set of descriptors (R212): a condition copy or a pulse. -/
def FaultManager.activeSet (fm : FaultManager) : BitVec 51 :=
  (allDescriptors.filter fm.active).foldl withD 0

/-- The hold-off time left in ms, rounded up; 0 when not running (R128, R212). -/
def FaultManager.holdOffLeft (fm : FaultManager) (clock : Nat) : Nat :=
  match fm.holdOff with
  | some d => (d - clock + 999) / 1000
  | none => 0

/-! ### Commands on the fault manager -/

/-- Clear the listed flags (R126). -/
def FaultManager.clear (fm : FaultManager) (m : BitVec 51) : FaultManager := { fm with flags := fm.flags &&& ~~~m }

/-- Start or restart the hold-off timer; a time of 0 runs out at once (R129). -/
def FaultManager.startHoldOff (fm : FaultManager) (clock ms : Nat) : FaultManager :=
  { fm with holdOff := if ms = 0 then none else some (clock + ms * 1000) }

/-- Set the selected enables to their values (R214). -/
def FaultManager.setEnables (fm : FaultManager) (select value : BitVec 51) : FaultManager :=
  { fm with enables := (fm.enables &&& ~~~select) ||| (value &&& select) }

/-- Remove the up to n oldest records (R137). -/
def FaultManager.removeRecords (fm : FaultManager) (n : Nat) : FaultManager := { fm with log := fm.log.drop n }

/-! ### The policy (6.5) -/

/-- Whether a view select includes a view (R132). -/
def ViewSelect.includes : ViewSelect → View → Bool
  | .main, v => v.isMain
  | .wide, v => !v.isMain
  | .both, _ => true

/-- Whether a valid policy entry matches a descriptor and a view (R132). -/
def PolicyEntry.hits (e : PolicyEntry) (d : Descriptor) (v : View) : Bool :=
  (match e.source with
    | none => true
    | some c => c == d.source) &&
  (d.kind &&& e.kindMask == e.kindValue &&& e.kindMask) && e.select.includes v

/-- The kinds for which DEGRADE from an entry acts as WARN (R133). -/
def cappedAtWarn (d : Descriptor) : Bool := d.kind == 0x11 || d.kind == 0x0C || d.kind == 0x0D

/-- The reaction of a view to one active descriptor: the first matching entry, else the default (R132, R133). -/
def reactionTo (policy : List PolicyEntry) (d : Descriptor) (v : View) : Reaction :=
  match policy.find? (fun e => e.hits d v) with
  | none => d.defaultReaction
  | some e => if e.reaction = .degrade ∧ cappedAtWarn d then .warn else e.reaction

/-- The order NONE, WARN, DEGRADE (R134), which is also the trailer's code (R193). -/
def Reaction.code : Reaction → Nat
  | .none => 0
  | .warn => 1
  | .degrade => 2

/-- The stronger of two reactions (R134). -/
def Reaction.stronger (a b : Reaction) : Reaction := if a.code < b.code then b else a

/-- The effective reaction of a view (R134). -/
def effectiveReaction (fm : FaultManager) (policy : List PolicyEntry) (v : View) : Reaction :=
  ((allDescriptors.filter fun d => fm.active d && d.concerns v).map fun d => reactionTo policy d v).foldl
    Reaction.stronger .none

end Sys2Proof.Machine
end

