-- ==== Sys2Proof/Machine/Tables.lean ====
section
/-! DEFINITION. The table store (chapter 8): the table RAM and its errors, kind records, latches, the sync
copy and the scrubber. -/

namespace Sys2Proof

/-- The code of a table kind (R156). -/
def Kind.code : Kind → Nat
  | .cameraL => 0
  | .cameraR => 1
  | .view => 2
  | .tone => 3
  | .glare => 4
  | .light => 5
  | .policy => 6
  | .timing => 7

/-- The code of a table kind as an index. -/
def Kind.index (k : Kind) : Fin 8 := ⟨k.code, by cases k <;> decide⟩

/-- The eight kinds in code order. -/
def allKinds : List Kind := [.cameraL, .cameraR, .view, .tone, .glare, .light, .policy, .timing]

/-- The kind of a code, none for a code above 7. -/
def kindOfCode (n : Nat) : Option Kind := allKinds[n]?

/-- Words per bank of a kind (R156). -/
def Kind.size : Kind → Nat
  | .cameraL | .cameraR => 16
  | .view => 32
  | .tone => 132
  | .glare | .light => 24
  | .policy => 18
  | .timing => 12

/-- The address of a kind's first word in bank A (R156). -/
def Kind.base : Kind → Nat
  | .cameraL => 0
  | .cameraR => 16
  | .view => 32
  | .tone => 64
  | .glare => 196
  | .light => 220
  | .policy => 244
  | .timing => 262

/-- The profile kind of a side. -/
def Side.profileKind : Side → Kind
  | .left => .cameraL
  | .right => .cameraR

/-- The other bank. -/
def Bank.other : Bank → Bank
  | .bankA => .bankB
  | .bankB => .bankA

/-- The RAM address of a word (R156). -/
def ramAddress (k : Kind) (b : Bank) (off : Nat) : Nat :=
  k.base + off + (match b with | .bankA => 0 | .bankB => Config.bankWords)

end Sys2Proof

namespace Sys2Proof.Machine

/-! ### The table RAM -/

/-- What an address that is not listed reads as: the zero word that the clearing writes (R176). -/
def TableWord.clean : TableWord := {}

/-- The word at an address. -/
def ramRead : List (Nat × TableWord) → Nat → TableWord
  | [], _ => TableWord.clean
  | (a, w) :: rest, addr => if a = addr then w else ramRead rest addr

/-- Write the word at an address, keeping the canonical form: addresses rise, and no entry equals the clean
zero word. -/
def ramWrite : List (Nat × TableWord) → Nat → TableWord → List (Nat × TableWord)
  | [], addr, w => if w = TableWord.clean then [] else [(addr, w)]
  | (a, v) :: rest, addr, w =>
    if a < addr then (a, v) :: ramWrite rest addr w
    else if a = addr then (if w = TableWord.clean then rest else (addr, w) :: rest)
    else if w = TableWord.clean then (a, v) :: rest
    else (addr, w) :: (a, v) :: rest

/-- The canonical form of the table RAM: addresses strictly rising and below 548, no clean zero word listed,
and no word disturbed in more than two bits (R156). -/
def ramWf : List (Nat × TableWord) → Bool
  | [] => true
  | (a, w) :: rest =>
    decide (a < Config.ramWords) && decide (w ≠ TableWord.clean) &&
      decide ((List.range 39).countP w.flips.getLsbD ≤ 2) && rest.all (fun e => decide (a < e.1)) && ramWf rest

/-- How many of a word's 39 bits differ from what was written (R156). -/
def TableWord.errors (w : TableWord) : Nat := (List.range 39).countP w.flips.getLsbD

/-- The 32 data bits as they stand in the RAM, without correction (R156, R168). -/
def TableWord.asRead (w : TableWord) : Word := w.data ^^^ w.flips.truncate 32

/-- A word as the store writes it: data with fresh check bits (R156). -/
def TableWord.fresh (data : Word) : TableWord := ⟨data, 0⟩

/-- A bit of a stored word is disturbed; a word's disturbances change at most two of its bits (R156).
DESIGN CHOICE (log 5): a bit disturbed a second time flips back to what was written, and the bound of two counts the
bits that differ now, not the bits already changed and restored. -/
def TableStore.disturb (ts : TableStore) (u : Upset) : TableStore :=
  let w := ramRead ts.ram u.addr.val
  let w' : TableWord := { w with flips := w.flips ^^^ BitVec.twoPow 39 u.bit.val }
  if w'.errors ≤ 2 then { ts with ram := ramWrite ts.ram u.addr.val w' } else ts

/-- The kind record of a kind. -/
def TableStore.kind (ts : TableStore) (k : Kind) : KindRecord := ts.kinds[k.index.val]'k.index.isLt

/-- Change the kind record of a kind. -/
def TableStore.modKind (ts : TableStore) (k : Kind) (f : KindRecord → KindRecord) : TableStore :=
  { ts with kinds := ts.kinds.set k.index.val (f (ts.kind k)) k.index.isLt }

/-- The stored word of a kind's bank. -/
def TableStore.word (ts : TableStore) (k : Kind) (b : Bank) (off : Nat) : TableWord :=
  ramRead ts.ram (ramAddress k b off)

/-- Write a word of a kind's bank with fresh check bits. -/
def TableStore.writeWord (ts : TableStore) (k : Kind) (b : Bank) (off : Nat) (data : Word) : TableStore :=
  { ts with ram := ramWrite ts.ram (ramAddress k b off) (TableWord.fresh data) }

/-- A kind is usable when its generation is not 0 and its health is GOOD (R160). -/
def TableStore.usable (ts : TableStore) (k : Kind) : Bool := (ts.kind k).generation != 0 && !(ts.kind k).corrupt

/-! ### Reading with correction -/

/-- The detail of TABLE_SEC: the kind code plus 256 for bank B, and the word offset (R118, R157). -/
def secDetail (k : Kind) (b : Bank) (off : Nat) : List Word :=
  [BitVec.ofNat 32 (k.code + (match b with | .bankA => 0 | .bankB => 256)), BitVec.ofNat 32 off]

/-- A double error in the live bank makes the kind CORRUPT; the first kind on the corruption list makes
TABLE_DED active (R120, R161). -/
def State.corruptKind (s : State) (k : Kind) (off : Nat) : State :=
  if (s.tables.kind k).corrupt then s
  else
    let s1 : State := { s with tables :=
      { s.tables.modKind k (fun r => { r with corrupt := true }) with
        corruptions := s.tables.corruptions ++ [(k, off)] } }
    if s.tables.corruptions = [] then
      s1.activate (.core .tableDed) [BitVec.ofNat 32 k.code, BitVec.ofNat 32 off]
    else s1

/-- One word is read with correction (R156, R157): the data and the state after, or no data at a double
error. A single error is written back and reported; a double error in the live bank makes the kind
CORRUPT. -/
def State.readWord (s : State) (k : Kind) (b : Bank) (off : Nat) : Option Word × State :=
  let w := s.tables.word k b off
  if w.errors = 0 then (some w.data, s)
  else if w.errors = 1 then
    (some w.data,
      { s with tables := s.tables.writeWord k b off w.data }.raise (.core .tableSec) (secDetail k b off))
  else (none, if b = (s.tables.kind k).live then s.corruptKind k off else s)

/-- The result of reading several words: each with its offset, or the offset of the first double error. -/
inductive Reading where
  | words (ws : List (Nat × Word))
  | doubleError (off : Nat)
deriving DecidableEq, Repr

/-- Words are read in the order given; the first double error ends the reading. -/
def State.readWords (s : State) (k : Kind) (b : Bank) : List Nat → Reading × State
  | [] => (.words [], s)
  | off :: rest =>
    match s.readWord k b off with
    | (none, s1) => (.doubleError off, s1)
    | (some d, s1) =>
      match s1.readWords k b rest with
      | (.words ws, s2) => (.words ((off, d) :: ws), s2)
      | (.doubleError e, s2) => (.doubleError e, s2)

/-- A latch (R160, R172): the words of the live bank when the kind is usable and no double error is met,
otherwise none, and the consumer takes the fallback contents. -/
def State.latch (s : State) (k : Kind) (offs : List Nat) : Option (List (Nat × Word)) × State :=
  if s.tables.usable k then
    match s.readWords k (s.tables.kind k).live offs with
    | (.words ws, s1) => (some ws, s1)
    | (.doubleError _, s1) => (none, s1)
  else (none, s)

/-- The word read at an offset. -/
def wordAt (ws : List (Nat × Word)) (off : Nat) : Word :=
  match ws with
  | [] => 0
  | (o, w) :: rest => if o = off then w else wordAt rest off

/-! ### The sync copy (R168) -/

/-- The next word of the sync copy of a kind is copied: the live word is read with correction, and its data
are written into the shadow; the data of a double error are copied as read. -/
def State.copyWord (s : State) (k : Kind) (c : SyncCopy) : State :=
  let live := (s.tables.kind k).live
  let raw := (s.tables.word k live c.next).asRead
  let (d, s1) := s.readWord k live c.next
  let ts := s1.tables.writeWord k live.other c.next (d.getD raw)
  { s1 with tables := ts.modKind k fun r =>
      { r with sync := if c.next + 1 < k.size then some { c with next := c.next + 1 } else none } }

/-- One word copy, when the kind is SYNCING and the word's microsecond has come (R168). -/
def State.syncStep (s : State) (k : Kind) : State :=
  match (s.tables.kind k).sync with
  | none => s
  | some c => if c.committed + c.next + 1 ≤ s.clock then s.copyWord k c else s

/-- The remaining words of a sync copy are copied (R177); `fuel` bounds their number. -/
def State.finishSync (s : State) (k : Kind) : Nat → State
  | 0 => s
  | fuel + 1 =>
    match (s.tables.kind k).sync with
    | none => s
    | some c => (s.copyWord k c).finishSync k fuel

/-! ### The scrubber (R173, R174) -/

/-- The kind and offset within its bank of an address below 274. -/
def kindAt (n : Nat) : Option (Kind × Nat) :=
  (allKinds.find? fun k => decide (k.base ≤ n) && decide (n < k.base + k.size)).map fun k => (k, n - k.base)

/-- The kind, bank and offset of a RAM address (R156). -/
def locate (addr : Nat) : Option (Kind × Bank × Nat) :=
  if addr < Config.bankWords then (kindAt addr).map fun (k, off) => (k, .bankA, off)
  else (kindAt (addr - Config.bankWords)).map fun (k, off) => (k, .bankB, off)

/-- Whether an address lies in the live bank of its kind. -/
def TableStore.isLive (ts : TableStore) (addr : Nat) : Bool :=
  match locate addr with
  | none => false
  | some (k, b, _) => b == (ts.kind k).live

/-- The addresses at or after a position, counting upward and wrapping from 547 to 0. -/
def addressesFrom (pos : Nat) : List Nat := (List.range Config.ramWords).map fun i => (pos + i) % Config.ramWords

/-- One visit: the first live address at or after the position is read, and the position becomes the address
after it (R173). -/
def State.scrub (s : State) : State :=
  match (addressesFrom s.tables.scrubPosition).find? s.tables.isLive with
  | none => s
  | some addr =>
    let s1 : State := { s with tables := { s.tables with scrubPosition := (addr + 1) % Config.ramWords } }
    match locate addr with
    | none => s1
    | some (k, b, off) => (s1.readWord k b off).2

/-- A visit is made when it is due, and the next one is due 50 µs later (R173). -/
def State.scrubIfDue (s : State) : State :=
  match s.tables.scrubDue with
  | none => s
  | some d =>
    if d ≤ s.clock then
      ({ s with tables := { s.tables with scrubDue := some (d + Config.scrubInterval) } }).scrub
    else s

/-! ### Loading, committing and locking -/

/-- The 32-bit words that data bytes spell, four at a time, least significant byte first; trailing bytes are
left out (R162). -/
def wordsOfBytes : List Byte → List Word
  | a :: b :: c :: d :: rest => BitVec.ofNat 32 (numberOf [a, b, c, d]) :: wordsOfBytes rest
  | _ => []

/-- Write words into the shadow bank of a kind at consecutive offsets (R162). -/
def TableStore.load (ts : TableStore) (k : Kind) (off : Nat) : List Word → TableStore
  | [] => ts
  | w :: rest => (ts.writeWord k (ts.kind k).live.other off w).load k (off + 1) rest

/-- The generation after a successful commit: one more, 65535 wrapping to 1 (R159). -/
def nextGeneration (g : Nat) : Nat := if g = 65535 then 1 else g + 1

/-- A commit succeeds (R167): the shadow becomes live, the generation rises, the health becomes GOOD, and the
sync copy begins. -/
def State.switchBanks (s : State) (k : Kind) : State :=
  let rest := s.tables.corruptions.filter fun e => e.1 != k
  let s1 : State := { s with tables :=
    { s.tables.modKind k (fun r =>
        { r with live := r.live.other, generation := nextGeneration r.generation, corrupt := false
                 sync := some ⟨s.clock, 0⟩ }) with
      corruptions := rest } }
  if (s.tables.kind k).corrupt ∧ rest = [] then s1.deactivate (.core .tableDed) else s1

/-- Lock a kind (R171). -/
def TableStore.lock (ts : TableStore) (k : Kind) : TableStore := ts.modKind k fun r => { r with locked := true }

/-- The bytes the CRC of a commit runs over: each word as four bytes, least significant first (R165). -/
def bankBytes (ws : List (Nat × Word)) : List Byte := ws.flatMap fun e => bytes4 e.2.toNat

end Sys2Proof.Machine
end

