-- ==== Sys2Proof/Machine/Formats.lean ====
section
/-! DEFINITION. The table formats (8.11, R178), the validation of a commit (R166), and what each consumer
latches of each kind, with its fallback contents (R160). -/

namespace Sys2Proof.Machine

/-! ### Validation (R166) -/

/-- A field of a table word: its lowest bit, its width, and its range. -/
structure FieldSpec where
  lo : Nat
  width : Nat
  least : Nat
  most : Nat
deriving DecidableEq, Repr

/-- Whether an entry word of POLICY is valid; the words of the others are not checked (R166). -/
def policyEntryUnchecked (k : Kind) (off : Nat) (w : Word) : Bool := k == .policy && decide (2 ≤ off) && !flag w 0

/-- The fields of a word (R178). -/
def fieldsOf : Kind → Nat → List FieldSpec
  | .cameraL, off | .cameraR, off =>
    match off with
    | 0 => [⟨0, 16, 0, 65535⟩, ⟨16, 1, 0, 1⟩]
    | 1 => [⟨0, 6, 2, 60⟩, ⟨8, 6, 0, 63⟩]
    | 2 => [⟨0, 12, 1, 4095⟩, ⟨16, 12, 1, 4095⟩]
    | 3 => [⟨0, 12, 1, 4095⟩]
    | 4 => [⟨0, 4, 0, 10⟩, ⟨8, 4, 0, 10⟩, ⟨16, 4, 0, 10⟩, ⟨24, 4, 0, 10⟩]
    | 5 => [⟨0, 12, 0, 4095⟩]
    | 6 | 7 | 8 => [⟨0, 10, 256, 1023⟩]
    | 9 => [⟨0, 16, 0, 65535⟩, ⟨16, 16, 0, 65535⟩]
    | _ => []
  | .view, off =>
    match off % 8 with
    | 0 => [⟨0, 11, 0, 1919⟩, ⟨16, 11, 0, 1279⟩]
    | 1 => [⟨0, 11, 0, 1919⟩, ⟨16, 11, 0, 1919⟩]
    | 2 => [⟨0, 11, 0, 1279⟩, ⟨16, 11, 0, 1279⟩]
    | 3 => [⟨0, 6, 32, 48⟩, ⟨8, 1, 0, 1⟩]
    | 4 => [⟨0, 9, 40, 500⟩, ⟨16, 5, 1, 30⟩]
    | 5 => [⟨0, 18, 20000, 250000⟩]
    | _ => []
  | .tone, _ => [⟨0, 20, 0, 1048575⟩, ⟨20, 10, 0, 1023⟩]
  | .glare, off =>
    match off with
    | 0 | 1 => [⟨0, 1, 0, 1⟩]
    | 2 | 3 => [⟨0, 20, 0, 1048575⟩]
    | 4 | 5 => [⟨0, 6, 0, 63⟩]
    | 6 => [⟨0, 20, 1, 1048575⟩]
    | 7 => [⟨0, 13, 1, 4096⟩]
    | 8 => [⟨0, 7, 1, 64⟩]
    | 9 => [⟨0, 10, 1, 600⟩]
    | 10 => [⟨0, 6, 1, 40⟩]
    | 11 => [⟨0, 4, 1, 8⟩]
    | 12 => [⟨0, 3, 1, 4⟩]
    | 13 => [⟨0, 5, 1, 30⟩]
    | 14 => [⟨0, 8, 16, 255⟩]
    | 15 | 16 => [⟨0, 8, 1, 240⟩]
    | 17 => [⟨0, 3, 0, 4⟩]
    | _ => []
  | .light, off =>
    match off with
    | 0 => [⟨0, 16, 0, 65535⟩, ⟨16, 16, 0, 65535⟩]
    | 1 | 2 => [⟨0, 20, 0, 1048575⟩]
    | 3 => [⟨0, 13, 0, 5000⟩, ⟨16, 14, 0, 10000⟩]
    | 4 => [⟨0, 10, 0, 1023⟩, ⟨16, 10, 0, 1023⟩]
    | 5 => [⟨0, 13, 0, 5000⟩]
    | 23 => []
    | _ => [⟨0, 16, 0, 65535⟩, ⟨16, 10, 0, 1023⟩]
  | .policy, off =>
    match off with
    | 0 => [⟨0, 10, 0, 1000⟩]
    | 1 => []
    | _ => [⟨0, 1, 0, 1⟩, ⟨4, 3, 0, 7⟩, ⟨8, 6, 0, 63⟩, ⟨16, 6, 0, 63⟩, ⟨24, 2, 1, 3⟩, ⟨28, 2, 0, 2⟩]
  | .timing, off =>
    match off with
    | 0 | 1 => [⟨0, 18, 1000, 200000⟩]
    | 2 => [⟨0, 10, 20, 1000⟩, ⟨16, 13, 100, 5000⟩]
    | 3 | 6 => [⟨0, 1, 0, 1⟩]
    | 4 | 7 => [⟨0, 15, 15000, 20000⟩]
    | 5 | 8 => [⟨0, 14, 500, 10000⟩]
    | _ => []

/-- The value of a word's fields alone, with every other bit 0. -/
def fieldBits (fs : List FieldSpec) (w : Word) : Nat := (fs.map fun f => bits w f.lo f.width * 2 ^ f.lo).sum

/-- Every bit outside the fields is 0, and every field is in its range (R166). The source match of a policy
entry has the codes 0..4 and 7 (R178). -/
def rangesOk (k : Kind) (off : Nat) (w : Word) : Bool :=
  fieldBits (fieldsOf k off) w == w.toNat &&
    (fieldsOf k off).all (fun f => decide (f.least ≤ bits w f.lo f.width) && decide (bits w f.lo f.width ≤ f.most)) &&
    (!(k == .policy && decide (2 ≤ off)) || decide (bits w 4 3 ≤ 4) || bits w 4 3 == 7)

/-- Decompanding: the linear value of a code (R32). -/
def decompand (p : DevProfile) (c : Nat) : Nat :=
  let base1 := p.c1 * 2 ^ p.g0
  let base2 := base1 + (p.c2 - p.c1) * 2 ^ p.g1
  let base3 := base2 + (p.c3 - p.c2) * 2 ^ p.g2
  if c < p.c1 then c * 2 ^ p.g0
  else if c < p.c2 then base1 + (c - p.c1) * 2 ^ p.g1
  else if c < p.c3 then base2 + (c - p.c2) * 2 ^ p.g2
  else base3 + (c - p.c3) * 2 ^ p.g3

/-- The development fields of a profile bank (R178). -/
def devProfileOf (ws : List (Nat × Word)) : DevProfile where
  c1 := bits (wordAt ws 2) 0 12
  c2 := bits (wordAt ws 2) 16 12
  c3 := bits (wordAt ws 3) 0 12
  g0 := bits (wordAt ws 4) 0 4
  g1 := bits (wordAt ws 4) 8 4
  g2 := bits (wordAt ws 4) 16 4
  g3 := bits (wordAt ws 4) 24 4
  black := bits (wordAt ws 5) 0 12
  gainR := bits (wordAt ws 6) 0 10
  gainG := bits (wordAt ws 7) 0 10
  gainB := bits (wordAt ws 8) 0 10

/-- The cross-field rules charged to a word (R166). -/
def crossOk (k : Kind) (ws : List (Nat × Word)) (off : Nat) : Bool :=
  match k with
  | .cameraL | .cameraR =>
    let p := devProfileOf ws
    match off with
    | 2 => decide (p.c1 < p.c2)
    | 3 => decide (p.c2 < p.c3)
    | 4 => decide (p.g0 ≤ p.g1) && decide (p.g1 ≤ p.g2) && decide (p.g2 ≤ p.g3) &&
        decide (decompand p 4095 ≤ Config.lumaMax)
    | _ => true
  | .view =>
    let v := off / 8
    let x0 := bits (wordAt ws (8 * v)) 0 11
    let y0 := bits (wordAt ws (8 * v)) 16 11
    match off % 8 with
    | 1 => decide (bits (wordAt ws off) 0 11 ≤ x0) && decide (x0 ≤ bits (wordAt ws off) 16 11)
    | 2 => decide (bits (wordAt ws off) 0 11 ≤ y0) && decide (y0 ≤ bits (wordAt ws off) 16 11)
    | 3 =>
      let s := bits (wordAt ws off) 0 6
      let h := (if v % 2 = 0 then 16 else 9) * s
      decide (x0 + 40 * s ≤ 1920) && decide (y0 + h ≤ 1280)
    | _ => true
  | .tone =>
    let i := off % 33
    let x := bits (wordAt ws off) 0 20
    let y := bits (wordAt ws off) 20 10
    (i != 0 || x == 0) &&
      (i == 0 || (decide (bits (wordAt ws (off - 1)) 0 20 < x) && decide (bits (wordAt ws (off - 1)) 20 10 ≤ y))) &&
      (i != 32 || x == Config.lumaMax)
  | .light =>
    let x := bits (wordAt ws off) 0 16
    let y := bits (wordAt ws off) 16 10
    match off with
    | 0 => decide (bits (wordAt ws 0) 0 16 < bits (wordAt ws 0) 16 16)
    | 2 => decide (bits (wordAt ws 1) 0 20 < bits (wordAt ws 2) 0 20)
    | 6 => x == 0
    | 22 => x == 65535 && decide (bits (wordAt ws 21) 0 16 < x) && decide (bits (wordAt ws 21) 16 10 ≤ y)
    | _ =>
      !(decide (7 ≤ off) && decide (off ≤ 21)) ||
        (decide (bits (wordAt ws (off - 1)) 0 16 < x) && decide (bits (wordAt ws (off - 1)) 16 10 ≤ y))
  | .timing => off != 1 || decide (bits (wordAt ws 0) 0 18 < bits (wordAt ws 1) 0 18)
  | .glare | .policy => true

/-- Whether a word of a bank passes validation (R166). -/
def wordValid (k : Kind) (ws : List (Nat × Word)) (off : Nat) : Bool :=
  policyEntryUnchecked k off (wordAt ws off) || (rangesOk k off (wordAt ws off) && crossOk k ws off)

/-- The offset of the first word that fails validation (R166). -/
def firstInvalid (k : Kind) (ws : List (Nat × Word)) : Option Nat :=
  (List.range k.size).find? fun off => !wordValid k ws off

/-! ### Ingest (R6) -/

/-- The profile values of ingest, from words 0 and 1. -/
def ingestProfileOf (ws : List (Nat × Word)) : IngestProfile where
  expectedId := BitVec.ofNat 16 (bits (wordAt ws 0) 0 16)
  idCheck := flag (wordAt ws 0) 16
  frozenCount := bits (wordAt ws 1) 0 6
  lineErrorLimit := bits (wordAt ws 1) 8 6

/-- The fallback profile of ingest: ID check off, N 8, line error limit 8 (R6, R160). -/
def ingestProfileFallback : IngestProfile := ⟨0, false, 8, 8⟩

/-- The TIMING values of ingest, from words 0 to 2. -/
def ingestTimingOf (ws : List (Nat × Word)) : IngestTiming where
  periodMin := bits (wordAt ws 0) 0 18
  periodMax := bits (wordAt ws 1) 0 18
  silentMs := bits (wordAt ws 2) 0 10

/-- The fallback TIMING values of ingest (R6, R160). -/
def ingestTimingFallback : IngestTiming := ⟨10000, 40000, Config.fallbackSilentMs⟩

/-! ### Development core (R28 to R30, R45) -/

/-- The fallback profile of the core (R45). -/
def devProfileFallback : DevProfile := ⟨1024, 2048, 3072, 0, 0, 0, 0, 0, 256, 256, 256⟩

/-- Curve c of a TONE bank (R178). -/
def toneCurveOf (ws : List (Nat × Word)) (c : Nat) : Curve :=
  (List.range 33).map fun i => (bits (wordAt ws (33 * c + i)) 0 20, bits (wordAt ws (33 * c + i)) 20 10)

/-- The fallback curve (R45). -/
def fallbackCurve : Curve := (List.range 32).map (fun i => (32768 * i, 32 * i)) ++ [(1048575, 1023)]

/-- The window of a view in a VIEW bank, at a given origin (R30). -/
def windowOf (ws : List (Nat × Word)) (v : View) (x0 y0 : Nat) : Window where
  scale := bits (wordAt ws (8 * v.index + 3)) 0 6
  x0 := x0
  y0 := y0
  flip := flag (wordAt ws (8 * v.index + 3)) 8

/-- The fallback default origin's row of a view (R45, R57). -/
def fallbackOriginY (v : View) : Nat := if v.isMain then 0 else 848

/-- The fallback window of a view (R45). -/
def windowFallback (v : View) : Window := ⟨48, 0, fallbackOriginY v, true⟩

/-- The default origin of a view in a VIEW bank (R57). -/
def defaultOrigin (ws : List (Nat × Word)) (v : View) : Nat × Nat :=
  (bits (wordAt ws (8 * v.index)) 0 11, bits (wordAt ws (8 * v.index)) 16 11)

/-- The GLARE fields of a side's core (R28). -/
def devGlareOf (ws : List (Nat × Word)) (side : Side) : DevGlare where
  knee := bits (wordAt ws (2 + side.code)) 0 20
  feather := bits (wordAt ws (4 + side.code)) 0 6
  hot := bits (wordAt ws 6) 0 20
  cellThreshold := bits (wordAt ws 7) 0 13

/-- The fallback GLARE contents of the core (R45). -/
def devGlareFallback : DevGlare := ⟨262144, 16, 786432, 1024⟩

/-! ### Views (R58, R59) -/

/-- The limits of a view in a VIEW bank (R59). -/
def viewLimitsOf (ws : List (Nat × Word)) (v : View) : ViewLimits where
  holdMs := bits (wordAt ws (8 * v.index + 4)) 0 9
  recoveryFrames := bits (wordAt ws (8 * v.index + 4)) 16 5
  latencyLimit := bits (wordAt ws (8 * v.index + 5)) 0 18

/-- The VIEW words a composer latches: hold limit, recovery frames and latency limit of its two views. -/
def composerViewWords (side : Side) : List Nat :=
  [8 * side.mainView.index + 4, 8 * side.mainView.index + 5, 8 * side.wideView.index + 4,
    8 * side.wideView.index + 5]

/-- What a pan is clamped against: scale and pan limits x_lo, x_hi, y_lo, y_hi (R58). -/
structure PanFields where
  scale : Nat
  xLo : Nat
  xHi : Nat
  yLo : Nat
  yHi : Nat
deriving DecidableEq, Repr

/-- The pan fields of a view in a VIEW bank (R58). -/
def panFieldsOf (ws : List (Nat × Word)) (v : View) : PanFields where
  scale := bits (wordAt ws (8 * v.index + 3)) 0 6
  xLo := bits (wordAt ws (8 * v.index + 1)) 0 11
  xHi := bits (wordAt ws (8 * v.index + 1)) 16 11
  yLo := bits (wordAt ws (8 * v.index + 2)) 0 11
  yHi := bits (wordAt ws (8 * v.index + 2)) 16 11

/-- The fallback pan fields: s = 48, the full sensor area (R58, R160). -/
def panFieldsFallback : PanFields := ⟨48, 0, 1919, 0, 1279⟩

/-! ### Policy (R129, R131) -/

/-- The source match of an entry: none for ANY (R178). -/
def sourceMatchOf (w : Word) : Option Nat := if bits w 4 3 = 7 then none else some (bits w 4 3)

/-- The view select of an entry (R178). -/
def viewSelectOf (w : Word) : ViewSelect :=
  match bits w 24 2 with
  | 1 => .main
  | 2 => .wide
  | _ => .both

/-- The reaction of an entry (R178). -/
def reactionOf (w : Word) : Reaction :=
  match bits w 28 2 with
  | 0 => .none
  | 1 => .warn
  | _ => .degrade

/-- The entry of a word, when it is valid (R178). -/
def policyEntryOf (w : Word) : Option PolicyEntry :=
  if flag w 0 then some ⟨sourceMatchOf w, bits w 8 6, bits w 16 6, viewSelectOf w, reactionOf w⟩ else none

/-- The valid entries of a POLICY bank, in index order (R131). -/
def policyOf (ws : List (Nat × Word)) : List PolicyEntry :=
  (List.range 16).filterMap fun e => policyEntryOf (wordAt ws (2 + e))

/-! ### Output timing (R69) -/

/-- The output timing of a display in a TIMING bank (R178). -/
def outputTimingOf (ws : List (Nat × Word)) (side : Side) : OutputTiming where
  track := flag (wordAt ws (3 + 3 * side.code)) 0
  nominal := bits (wordAt ws (4 + 3 * side.code)) 0 15
  lead := bits (wordAt ws (5 + 3 * side.code)) 0 14

/-- The TIMING words a composer latches. -/
def composerTimingWords (side : Side) : List Nat := [3 + 3 * side.code, 4 + 3 * side.code, 5 + 3 * side.code]

/-! ### Glare tracker (R76) -/

/-- What a tracker latches of GLARE; `fromTable` says that it came from the live bank. -/
structure TrackerGlare where
  fromTable : Bool
  enable : Bool
  maxBlob : Nat
  overload : Nat
  gate : Nat
  confirmHits : Nat
  tentativeMiss : Nat
  coastLimit : Nat
  target : Nat
  slewDown : Nat
  slewUp : Nat
  margin : Nat
deriving DecidableEq, Repr

/-- The GLARE words a tracker latches: the fields of R76. -/
def trackerWords : List Nat := [0, 1, 8, 9, 10, 11, 12, 13, 14, 15, 16, 17]

/-- The tracker's fields of a GLARE bank (R76, R178). -/
def trackerGlareOf (ws : List (Nat × Word)) (side : Side) : TrackerGlare where
  fromTable := true
  enable := flag (wordAt ws side.code) 0
  maxBlob := bits (wordAt ws 8) 0 7
  overload := bits (wordAt ws 9) 0 10
  gate := bits (wordAt ws 10) 0 6
  confirmHits := bits (wordAt ws 11) 0 4
  tentativeMiss := bits (wordAt ws 12) 0 3
  coastLimit := bits (wordAt ws 13) 0 5
  target := bits (wordAt ws 14) 0 8
  slewDown := bits (wordAt ws 15) 0 8
  slewUp := bits (wordAt ws 16) 0 8
  margin := bits (wordAt ws 17) 0 3

/-- The built-in contents of R76; the fields without a built-in value are not used with them. -/
def trackerGlareFallback : TrackerGlare := ⟨false, false, 0, 0, 0, 0, 0, 0, 0, 0, 16, 1⟩

/-! ### Light (R103, R111) -/

/-- The LIGHT fields of qualification (R103); times in ms. -/
structure QualFields where
  luxNight : Nat
  luxDay : Nat
  sceneNight : Nat
  sceneDay : Nat
  debounceMs : Nat
  validateMs : Nat
deriving DecidableEq, Repr

/-- The qualification fields of a LIGHT bank (R178). -/
def qualFieldsOf (ws : List (Nat × Word)) : QualFields where
  luxNight := bits (wordAt ws 0) 0 16
  luxDay := bits (wordAt ws 0) 16 16
  sceneNight := bits (wordAt ws 1) 0 20
  sceneDay := bits (wordAt ws 2) 0 20
  debounceMs := bits (wordAt ws 3) 0 13
  validateMs := bits (wordAt ws 3) 16 14

/-- The LIGHT fields of the backlight (R111). -/
structure BacklightFields where
  curve : Curve
  nightCap : Nat
  fallbackLevel : Nat
  holdMs : Nat
deriving DecidableEq, Repr

/-- The LIGHT words of the backlight. -/
def backlightWords : List Nat := [4, 5] ++ (List.range 17).map (6 + ·)

/-- The backlight fields of a LIGHT bank (R178). -/
def backlightFieldsOf (ws : List (Nat × Word)) : BacklightFields where
  curve := (List.range 17).map fun k => (bits (wordAt ws (6 + k)) 0 16, bits (wordAt ws (6 + k)) 16 10)
  nightCap := bits (wordAt ws 4) 0 10
  fallbackLevel := bits (wordAt ws 4) 16 10
  holdMs := bits (wordAt ws 5) 0 13

/-! ### Self-test references (R145, R146, R148) -/

/-- The expected camera ID of a profile bank, as the IDENT step latches it. -/
def expectedIdOf (ws : List (Nat × Word)) : Half := BitVec.ofNat 16 (bits (wordAt ws 0) 0 16)

/-- The pattern signature of a profile bank. -/
def patternSignatureOf (ws : List (Nat × Word)) : Half := BitVec.ofNat 16 (bits (wordAt ws 9) 0 16)

/-- The develop signature of a profile bank. -/
def developSignatureOf (ws : List (Nat × Word)) : Half := BitVec.ofNat 16 (bits (wordAt ws 9) 16 16)

end Sys2Proof.Machine
end

