-- ==== Sys2Proof/Machine/Develop.lean ====
section
/-! DEFINITION. Development arithmetic (chapter 2): the stages of one pixel, view sampling, the statistics of
a pass, and the reference pass. All arithmetic is exact on natural numbers; every division is a floor. -/

namespace Sys2Proof.Machine

/-! ### From code to linear light (R32 to R36) -/

/-- Black level subtraction (R33). -/
def blackCorrect (p : DevProfile) (raw : Nat) : Nat := raw - p.black

/-- The black-corrected sample of a code (R32, R33). -/
def sampleOf (p : DevProfile) (c : Code) : Nat := blackCorrect p (decompand p c.toNat)

/-- The colours of the mosaic (R34). -/
inductive Colour where
  | red
  | green
  | blue
deriving DecidableEq, Repr

/-- The colour a pixel carries in the RGGB mosaic (R34). -/
def colourAt (x y : Nat) : Colour :=
  if (x + y) % 2 = 1 then .green else if x % 2 = 0 then .red else .blue

/-- The nine neighbourhood positions of a pixel, each clamped into the frame (R34). -/
def neighbours (x y : Nat) : List (Nat × Nat) :=
  [y - 1, y, min (y + 1) (Config.sensorHeight - 1)].flatMap fun j =>
    [x - 1, x, min (x + 1) (Config.sensorWidth - 1)].map fun i => (i, j)

/-- The floor of the mean of some samples. -/
def meanOf (ns : List Nat) : Nat := ns.sum / ns.length

/-- One colour channel of a pixel: its own sample when it carries that colour, else the mean of the samples of
that colour among its nine positions (R34). -/
def channelAt (sample : Nat → Nat → Nat) (x y : Nat) (c : Colour) : Nat :=
  if colourAt x y = c then sample x y
  else meanOf (((neighbours x y).filter fun p => colourAt p.1 p.2 = c).map fun p => sample p.1 p.2)

/-- White balance of one channel (R35). -/
def balance (gain v : Nat) : Nat := min Config.lumaMax (v * gain / 256)

/-- Luminance (R36). -/
def luminance (r g b : Nat) : Nat := (77 * r + 150 * g + 29 * b) / 256

/-! ### Glare compression (R37, R38) -/

/-- Whether a zone contains a pixel (R37). -/
def Zone.contains (z : Zone) (x y : Nat) : Bool :=
  decide (z.x0 ≤ x) && decide (x ≤ z.x1) && decide (z.y0 ≤ y) && decide (y ≤ z.y1)

/-- The depth of a pixel into a zone that contains it (R37). -/
def Zone.depth (z : Zone) (x y : Nat) : Nat := min (min (x - z.x0) (z.x1 - x)) (min (y - z.y0) (z.y1 - y))

/-- The attenuation of a zone at a pixel it contains, with feather `f` (R37). -/
def Zone.attenuationAt (z : Zone) (f x y : Nat) : Nat :=
  if f ≤ z.depth x y then z.attenuation
  else 256 - (256 - z.attenuation) * (z.depth x y + 1) / (f + 1)

/-- The effective attenuation: the smallest over the zones that contain the pixel, none when none does
(R37). -/
def effectiveAttenuation (zones : List Zone) (f x y : Nat) : Option Nat :=
  ((zones.filter fun z => z.contains x y).map fun z => z.attenuationAt f x y).min?

/-- The compressed luminance (R38). -/
def compress (g : DevGlare) (zones : List Zone) (x y luma : Nat) : Nat :=
  match effectiveAttenuation zones g.feather x y with
  | none => luma
  | some a => if luma ≤ g.knee then luma else g.knee + (luma - g.knee) * a / 256

/-! ### Tone and output (R39, R40) -/

/-- Piecewise-linear interpolation of a curve given by its knots (R39, R112); at and beyond the last knot the
level is the last knot's. -/
def interpolate : Curve → Nat → Nat
  | [], _ => 0
  | [(_, y)], _ => y
  | (x0, y0) :: (x1, y1) :: rest, x =>
    if x < x1 then y0 + (x - x0) * (y1 - y0) / (x1 - x0) else interpolate ((x1, y1) :: rest) x

/-- One output channel (R40). -/
def outputChannel (v tone luma : Nat) : BitVec 10 :=
  if luma = 0 then 0 else BitVec.ofNat 10 (min 1023 (v * tone / luma))

/-- A developed pixel: the uncompressed luminance for the statistics, and the output channels. -/
structure Developed where
  luma : Nat
  out : Rgb
deriving DecidableEq, Repr

/-- All stages of one pixel from the black-corrected samples (R34 to R40). -/
def developPixel (w : WorkingCopies) (sample : Nat → Nat → Nat) (x y : Nat) : Developed :=
  let r := balance w.profile.gainR (channelAt sample x y .red)
  let g := balance w.profile.gainG (channelAt sample x y .green)
  let b := balance w.profile.gainB (channelAt sample x y .blue)
  let luma := luminance r g b
  let tone := interpolate w.curve (compress w.glare w.zones x y luma)
  ⟨luma, ⟨outputChannel r tone luma, outputChannel g tone luma, outputChannel b tone luma⟩⟩

/-- The samples of the frame around row `y`, from the rows above, at and below it. -/
def rowSample (above row below : List Nat) (y x j : Nat) : Nat :=
  if j < y then above.getD x 0 else if j = y then row.getD x 0 else below.getD x 0

/-- Develop row `y` from the black-corrected rows above, at and below it. -/
def developRow (w : WorkingCopies) (above row below : List Nat) (y : Nat) : List Developed :=
  (List.range Config.sensorWidth).map fun x => developPixel w (rowSample above row below y) x y

/-! ### View sampling (R41) -/

/-- The developed row that region row `v` takes. -/
def Window.sourceRow (w : Window) (v : Nat) : Nat := w.y0 + v * w.scale / 32

/-- The developed column that region column `u` takes. -/
def Window.sourceColumn (w : Window) (u : Nat) : Nat :=
  w.x0 + (if w.flip then Config.regionWidth - 1 - u else u) * w.scale / 32

/-- The region row cut from a developed row. -/
def Window.cut (w : Window) (px : List Developed) : List Rgb :=
  (List.range Config.regionWidth).map fun u => ((px[w.sourceColumn u]?).map (·.out)).getD ⟨0, 0, 0⟩

/-- A region's picture after developed row `y` is final: the next region row is written when it takes that
row. -/
def writeRegionRow (w : Window) (rows : Nat) (y : Nat) (px : List Developed) (picture : Picture) : Picture :=
  if picture.length < rows ∧ w.sourceRow picture.length = y then picture ++ [w.cut px] else picture

/-! ### Statistics of a camera pass (R42, R43) -/

/-- The hot pixels of row `y` are added to the counts of its cells (R42). -/
def countHot (hot : Nat) (y : Nat) (px : List Developed) (counts : List Nat) : List Nat :=
  counts.mapIdx fun i n =>
    if i / 30 = y / 64 then n + (((px.drop (64 * (i % 30))).take 64).countP fun p => decide (hot ≤ p.luma)) else n

/-- The sample-grid columns of a row (spec 00, the sample grid). -/
def gridColumns : List Nat := (List.range 30).map fun cx => 32 + 64 * cx

/-- Whether a pixel row holds sample points. -/
def gridRow (y : Nat) : Bool := y % 64 == 32

/-- The luminance at the sample points of row `y` is recorded (R43). -/
def recordSamples (y : Nat) (px : List Developed) (samples : List Nat) : List Nat :=
  if gridRow y then samples ++ gridColumns.map fun x => ((px[x]?).map (·.luma)).getD 0 else samples

/-- The statistics of a pass take a final row. -/
def CameraPass.takeRow (p : CameraPass) (y : Nat) (px : List Developed) : CameraPass :=
  { p with
    hotCounts := countHot p.copies.glare.hot y px p.hotCounts
    samples := recordSamples y px p.samples }

/-- The hot-cell map in raster order (R42). -/
def CameraPass.hotMap (p : CameraPass) : List Bool :=
  p.hotCounts.map fun n => decide (p.copies.glare.cellThreshold ≤ n)

/-- The scene level (R43). -/
def CameraPass.sceneLevel (p : CameraPass) : Nat :=
  let cold := ((p.samples.zip p.hotMap).filter fun e => !e.2).map (·.1)
  if cold = [] then Config.lumaMax else meanOf cold

/-- A camera pass as its frame starts (R28): no counts, no samples, no lines. -/
def CameraPass.fresh (w : WorkingCopies) : CameraPass := ⟨w, List.replicate 600 0, [], [], []⟩

/-- The rows that become final when the line of pixel row `y` is taken, with their row numbers: row y − 1,
and at the last line row y as well (R34). -/
def CameraPass.finalRows (p : CameraPass) (y : Nat) (line : List Nat) : List (Nat × List Developed) :=
  let w := p.copies
  let last := if y = Config.sensorHeight - 1 then [(y, developRow w p.newer line line y)] else []
  if y = 0 then last
  else
    let above := if y = 1 then p.newer else p.older
    (y - 1, developRow w above p.newer line (y - 1)) :: last

/-- The pass keeps the two latest lines. -/
def CameraPass.keepLine (p : CameraPass) (line : List Nat) : CameraPass := { p with older := p.newer, newer := line }

/-! ### The reference pass (R46, R47) -/

/-- The code of the reference frame (R47). -/
def referenceCode (x y : Nat) : Code := BitVec.ofNat 12 ((x + 2 * y) % 4096)

/-- A developed pixel of the reference frame. -/
def referencePixel (w : WorkingCopies) (x y : Nat) : Developed :=
  developPixel w (fun i j => sampleOf w.profile (referenceCode i j)) x y

/-- The develop signature takes the sample points of row `y` (R47). -/
def signRow (w : WorkingCopies) (y : Nat) (crc : Half) : Half :=
  if gridRow y then gridColumns.foldl (fun c x => crcPixel c (referencePixel w x y).out) crc else crc

/-- A reference pass takes row `y` of the reference frame: the signature, and the MAIN-view image by R41. -/
def ReferencePass.takeRow (p : ReferencePass) (y : Nat) : ReferencePass :=
  { p with
    signature := signRow p.copies y p.signature
    image :=
      if p.image.length < 512 ∧ p.copies.mainWindow.sourceRow p.image.length = y then
        p.image ++ [(List.range Config.regionWidth).map fun u =>
          (referencePixel p.copies (p.copies.mainWindow.sourceColumn u) y).out]
      else p.image }

/-- A reference pass has developed every row (R47, an IMMEDIATE pass at its end). -/
def ReferencePass.takeAll (p : ReferencePass) : ReferencePass :=
  (List.range Config.sensorHeight).foldl ReferencePass.takeRow p

/-- The working copies of a reference pass: the DAY curve and an empty zone list (R46). -/
def WorkingCopies.forReference (w : WorkingCopies) : WorkingCopies := { w with curve := w.dayCurve, zones := [] }

/-- A reference pass as it begins (R46). -/
def ReferencePass.fresh (w : WorkingCopies) (pacing : Pacing) : ReferencePass :=
  ⟨w.forReference, pacing, crcInit, []⟩

/-- The region sample positions of a MAIN-view image, as columns and rows (R149). -/
def regionColumns : List Nat := (List.range 30).map fun i => 64 * (2 * i + 1) / 3

/-- The rows of the region sample positions (R149). -/
def regionRows : List Nat := (List.range 20).map fun j => 64 * (2 * j + 1) / 5

/-- A pixel of a picture; black where the picture has none. -/
def pixelAt (p : Picture) (u v : Nat) : Rgb := (p.getD v []).getD u ⟨0, 0, 0⟩

/-- The write or read signature of an image (R149). -/
def imageSignature (p : Picture) : Half :=
  regionRows.foldl (fun c v => regionColumns.foldl (fun c' u => crcPixel c' (pixelAt p u v)) c) crcInit

/-! ### The frame-start latch (R28 to R31) -/

/-- The curve used and the curve: the side's DAY or NIGHT curve (R29); curve 2·side is DAY, 2·side + 1 NIGHT. -/
def toneIndex (side : Side) (d : DayNight) : Nat := 2 * side.code + (match d with | .day => 0 | .night => 1)

/-- The curve used for a day/night state (R29). -/
def usedFor : DayNight → CurveUsed
  | .day => .day
  | .night => .night

/-- The window of a view at a latch: the loaded scale and flip with the view's current origin, or the fallback
window whole (R30). -/
def latchedWindow (view : Option (List (Nat × Word))) (v : View) (u : ViewUnit) : Window :=
  match view with
  | some ws => windowOf ws v u.originX u.originY
  | none => windowFallback v

/-- The working copies from what was read of the four kinds (R28 to R31, R45). -/
def copiesOf (s : State) (side : Side) (profile tone view glare : Option (List (Nat × Word))) : WorkingCopies :=
  let d := (s.unit side).light.dayNight
  { profile := (profile.map devProfileOf).getD devProfileFallback
    curve := (tone.map fun ws => toneCurveOf ws (toneIndex side d)).getD fallbackCurve
    dayCurve := (tone.map fun ws => toneCurveOf ws (toneIndex side .day)).getD fallbackCurve
    curveUsed := (tone.map fun _ => usedFor d).getD .fallback
    toneGeneration := (tone.map fun _ => (s.tables.kind .tone).generation).getD 0
    mainWindow := latchedWindow view side.mainView (s.view side.mainView)
    wideWindow := latchedWindow view side.wideView (s.view side.wideView)
    glare := (glare.map fun ws => devGlareOf ws side).getD devGlareFallback
    zones := (s.unit side).glare.zones }

/-- The core latches its working copies: every word of the live bank of the profile, TONE, VIEW and GLARE, in
that order, each with its fallback (R28). -/
def State.latchCopies (s : State) (side : Side) : WorkingCopies × State :=
  let (profile, s1) := s.latch side.profileKind (List.range side.profileKind.size)
  let (tone, s2) := s1.latch .tone (List.range Kind.tone.size)
  let (view, s3) := s2.latch .view (List.range Kind.view.size)
  let (glare, s4) := s3.latch .glare (List.range Kind.glare.size)
  (copiesOf s4 side profile tone view glare, s4)

/-- The buffer-record contents the core hands over at its latch (R28). -/
def WorkingCopies.record (w : WorkingCopies) (start : Time) : BufferRecord where
  capture := start
  counter := none
  curveUsed := w.curveUsed
  zoneCount := w.zones.length
  toneGeneration := w.toneGeneration

end Sys2Proof.Machine
end

