-- ==== Sys2Proof/Machine/Rings.lean ====
section
/-! DEFINITION. The buffer rings of the views (3.1): filling, freeing, making READY, and the advance. -/

namespace Sys2Proof.Machine

/-- The buffer becomes FREE and its record is dropped; the DDR memory keeps the picture (R52). -/
def Buffer.release (b : Buffer) : Buffer := { b with status := .free, record := none }

/-- Change every buffer of a ring. -/
def Ring.mapBuffers (r : Ring) (f : Buffer → Buffer) : Ring := { r with b0 := f r.b0, b1 := f r.b1, b2 := f r.b2 }

/-- Change the buffers that are in a given state. -/
def Ring.onStatus (r : Ring) (st : BufferStatus) (f : Buffer → Buffer) : Ring :=
  r.mapBuffers fun b => if b.status = st then f b else b

/-- Whether a ring holds a buffer in a given state. -/
def Ring.has (r : Ring) (st : BufferStatus) : Bool :=
  decide (r.b0.status = st) || decide (r.b1.status = st) || decide (r.b2.status = st)

/-- The lowest buffer in a given state. -/
def Ring.find (r : Ring) (st : BufferStatus) : Option Buffer :=
  if r.b0.status = st then some r.b0
  else if r.b1.status = st then some r.b1
  else if r.b2.status = st then some r.b2
  else none

/-- The FREE buffer with the lowest number becomes FILLING with the record handed over (R50). -/
def Ring.beginFilling (r : Ring) (rec : BufferRecord) : Ring :=
  let b : Buffer := ⟨.filling, some rec, []⟩
  if r.b0.status = .free then { r with b0 := b }
  else if r.b1.status = .free then { r with b1 := b }
  else if r.b2.status = .free then { r with b2 := b }
  else r

/-- The FILLING buffer becomes FREE (R52, R54). -/
def Ring.freeFilling (r : Ring) : Ring := r.onStatus .filling Buffer.release

/-- Every buffer becomes FREE (R52). -/
def Ring.freeAll (r : Ring) : Ring := r.mapBuffers Buffer.release

/-- The frame's counter goes into the record of the FILLING buffer (R50). -/
def Ring.setCounter (r : Ring) (c : Byte) : Ring :=
  r.onStatus .filling fun b => { b with record := b.record.map fun x => { x with counter := some c } }

/-- The FILLING buffer becomes READY, and an older READY buffer becomes FREE and is counted as superseded; a
ring with no FILLING buffer is unchanged (R51). -/
def Ring.makeReady (r : Ring) : Ring :=
  if r.has .filling then
    let r1 := if r.has .ready then { r.onStatus .ready Buffer.release with superseded := bump r.superseded 65535 } else r
    r1.onStatus .filling fun b => { b with status := .ready }
  else r

/-- The advance at an output frame start: a READY buffer becomes SHOWN and the old SHOWN buffer FREE (R53). -/
def Ring.advance (r : Ring) : Ring :=
  if r.has .ready then
    (r.onStatus .shown Buffer.release).onStatus .ready fun b => { b with status := .shown }
  else r

/-- A region row is written into the FILLING buffer (R41, R54). -/
def Ring.writeRow (r : Ring) (w : Window) (rows y : Nat) (px : List Developed) : Ring :=
  r.onStatus .filling fun b => { b with picture := writeRegionRow w rows y px b.picture }

/-- Change the rings of both views of a side. -/
def State.modRings (s : State) (side : Side) (f : Ring → Ring) : State :=
  s.modViews side fun u => { u with ring := f u.ring }

/-- The frame store returns the side's FILLING buffers to FREE (R52). -/
def State.freeFilling (s : State) (side : Side) : State := s.modRings side Ring.freeFilling

/-- The recovery counts of both of the side's views become 0 (R61). -/
def State.clearRecovery (s : State) (side : Side) : State := s.modViews side fun u => { u with recovery := 0 }

/-- A view at the completion of an accepted developed frame: its FILLING buffer becomes READY, and its recovery
count advances when there was one and the latest effective reaction is not DEGRADE (R51, R61). -/
def ViewUnit.complete (u : ViewUnit) : ViewUnit :=
  { u with
    ring := u.ring.makeReady
    recovery := if u.ring.has .filling ∧ u.reaction ≠ .degrade then bump u.recovery 255 else u.recovery }

end Sys2Proof.Machine
end

