-- ==== Sys2Proof/Machine/Tracker.lean ====
section
/-! DEFINITION. The glare tracker (chapter 4): candidates, association, track states, the attenuation ramp and
the zone list. -/

namespace Sys2Proof.Machine

/-! ### Components and candidates (R79 to R81) -/

/-- Whether two cells, given by raster index, are left, right, upper or lower neighbours (R79). -/
def adjacent (a b : Nat) : Bool :=
  (a / 30 == b / 30 && (a % 30 + 1 == b % 30 || b % 30 + 1 == a % 30)) ||
    (a % 30 == b % 30 && (a / 30 + 1 == b / 30 || b / 30 + 1 == a / 30))

/-- Grow a component: `todo` are its cells whose neighbours are still to be looked for, `rest` the hot cells not
yet reached. The component's cells and the cells left over; `fuel` bounds the number of cells. -/
def flood : Nat → List Nat → List Nat → List Nat → List Nat × List Nat
  | 0, todo, rest, comp => (comp ++ todo, rest)
  | _ + 1, [], rest, comp => (comp, rest)
  | fuel + 1, c :: todo, rest, comp =>
    flood fuel (todo ++ rest.filter (adjacent c)) (rest.filter fun d => !adjacent c d) (comp ++ [c])

/-- The components of the hot cells, given in raster order; each begins with its first cell, and they come in
the raster order of their first cells (R79). -/
def componentsOf : Nat → List Nat → List (List Nat)
  | 0, _ => []
  | _ + 1, [] => []
  | fuel + 1, c :: cs =>
    let (comp, rest) := flood 601 [c] cs []
    comp :: componentsOf fuel rest

/-- The hot cells of a map in raster order. -/
def hotCells (map : List Bool) : List Nat := (map.zipIdx.filter (·.1)).map (·.2)

/-- Insert before the first element that `before` puts it in front of. -/
def insertBy {α : Type} (before : α → α → Bool) (x : α) : List α → List α
  | [] => [x]
  | y :: ys => if before x y then x :: y :: ys else y :: insertBy before x ys

/-- Sort, keeping the order of elements that `before` does not part. -/
def sortBy {α : Type} (before : α → α → Bool) : List α → List α
  | [] => []
  | x :: xs => insertBy (fun a b => !before b a) x (sortBy before xs)

/-- Components by cell count, largest first; those of equal count keep the raster order (R81). -/
def orderComponents (cs : List (List Nat)) : List (List Nat) := sortBy (fun a b => decide (b.length < a.length)) cs

/-- The smallest of some numbers. -/
def leastOf (ns : List Nat) : Nat := ns.min?.getD 0

/-- The largest of some numbers. -/
def mostOf (ns : List Nat) : Nat := ns.max?.getD 0

/-- The candidate record of a component (R80). -/
def candidateOf (maxBlob : Nat) (cells : List Nat) : Candidate :=
  let xs := cells.map (· % 30)
  let ys := cells.map (· / 30)
  { box := ⟨leastOf xs, mostOf xs, leastOf ys, mostOf ys⟩
    cells := cells.length
    qx := 4 * xs.sum / cells.length + 2
    qy := 4 * ys.sum / cells.length + 2
    oversize := decide (maxBlob < cells.length) }

/-- The candidates of a map are formed and the components beyond eight counted as dropped (R81). -/
def Glare.formCandidates (g : Glare) (maxBlob : Nat) (map : List Bool) : Glare :=
  let cs := orderComponents (componentsOf 600 (hotCells map))
  { g with
    candidates := (cs.take Config.candidateLimit).map (candidateOf maxBlob)
    droppedComponents := min 255 (g.droppedComponents + (cs.length - Config.candidateLimit)) }

/-! ### Association (R85, R86) -/

/-- The predicted position of a track (R85). -/
def Track.predicted (t : Track) : Nat × Nat := (clampNat 119 (t.qx + t.vx), clampNat 79 (t.qy + t.vy))

/-- The distance of an eligible pair, none for a pair that is not eligible (R85). -/
def pairDistance (gate : Nat) (t : Track) (c : Candidate) : Option Nat :=
  let dx := ((c.qx : Int) - t.predicted.1).natAbs
  let dy := ((c.qy : Int) - t.predicted.2).natAbs
  if t.state ≠ .free ∧ c.oversize = false ∧ dx ≤ gate ∧ dy ≤ gate then some (dx + dy) else none

/-- The eligible pairs (slot, candidate index, distance), by slot and then by index (R86). -/
def eligiblePairs (gate : Nat) (tracks : List Track) (cands : List Candidate) : List (Nat × Nat × Nat) :=
  tracks.zipIdx.flatMap fun (t, i) =>
    cands.zipIdx.filterMap fun (c, j) => (pairDistance gate t c).map fun d => (i, j, d)

/-- Pairs are taken in order; one is matched when neither its track nor its candidate has been (R86). -/
def takePairs : List (Nat × Nat × Nat) → List (Nat × Nat) → List (Nat × Nat)
  | [], matched => matched
  | (i, j, _) :: rest, matched =>
    if matched.any (fun m => m.1 == i || m.2 == j) then takePairs rest matched
    else takePairs rest (matched ++ [(i, j)])

/-- The matched pairs (slot, candidate index): eligible pairs by increasing distance, then slot, then index
(R86). -/
def matchPairs (gate : Nat) (tracks : List Track) (cands : List Candidate) : List (Nat × Nat) :=
  takePairs (sortBy (fun a b => decide (a.2.2 < b.2.2)) (eligiblePairs gate tracks cands)) []

/-! ### Updates (R87 to R89) -/

/-- The velocity update: the floor of half the sum, clamped into −32..31 (R87). -/
def newVelocity (old motion : Int) : Int := clampInt (-32) 31 ((old + motion) / 2)

/-- A track is hit by a candidate (R87). -/
def Track.hit (t : Track) (c : Candidate) : Track :=
  { t with
    vx := newVelocity t.vx ((c.qx : Int) - t.qx)
    vy := newVelocity t.vy ((c.qy : Int) - t.qy)
    qx := c.qx
    qy := c.qy
    box := c.box
    history := (t.history <<< 1) ||| 1
    misses := 0 }

/-- A track is missed: it coasts by its velocity, and its box is carried in whole cells (R88). -/
def Track.miss (t : Track) : Track :=
  let p := t.predicted
  let sx : Int := ((p.1 / 4 : Nat) : Int) - ((t.qx / 4 : Nat) : Int)
  let sy : Int := ((p.2 / 4 : Nat) : Int) - ((t.qy / 4 : Nat) : Int)
  { t with
    qx := p.1
    qy := p.2
    box := ⟨clampNat 29 (t.box.x0 + sx), clampNat 29 (t.box.x1 + sx), clampNat 19 (t.box.y0 + sy),
      clampNat 19 (t.box.y1 + sy)⟩
    history := t.history <<< 1
    misses := bump t.misses 255 }

/-- The update of the track in a slot from the matches: hit, missed, or FREE and untouched. -/
def updateTrack (matches_ : List (Nat × Nat)) (cands : List Candidate) (i : Nat) (t : Track) : Track :=
  if t.state = .free then t
  else
    match matches_.find? (fun m => m.1 == i) with
    | some m => match cands[m.2]? with
      | some c => t.hit c
      | none => t.miss
    | none => t.miss

/-- The first ID from the counter upward that no other track holds (R84). -/
def pickId (held : List Byte) (counter : Byte) : Nat → Byte
  | 0 => counter
  | fuel + 1 => if held.contains counter then pickId held (counter + 1) fuel else counter

/-- The IDs of the tracks that are not FREE. -/
def heldIds (tracks : Vector Track 6) : List Byte := (tracks.toList.filter fun t => t.state != .free).map (·.id)

/-- The lowest FREE slot. -/
def freeSlot (tracks : Vector Track 6) : Option (Fin 6) :=
  (List.finRange 6).find? fun i => tracks[i.val].state == .free

/-- A new track for a candidate (R89). -/
def Track.created (id : Byte) (c : Candidate) : Track :=
  { state := .tentative, id := id, qx := c.qx, qy := c.qy, vx := 0, vy := 0, box := c.box, history := 1, misses := 0,
    attenuation := 256, target := 256 }

/-- An unmatched candidate creates a track in the lowest FREE slot, or is counted as dropped (R89). -/
def Glare.createTrack (overload : Bool) (g : Glare) (c : Candidate) : Glare :=
  if c.oversize then g
  else
    match freeSlot g.tracks with
    | none => { g with droppedCandidates := bump g.droppedCandidates 255 }
    | some i =>
      if overload then { g with droppedCandidates := bump g.droppedCandidates 255 }
      else
        let id := pickId (heldIds g.tracks) g.idCounter 6
        { g with tracks := g.tracks.set i.val (Track.created id c) i.isLt, idCounter := id + 1 }

/-- The candidates that no pair matched, in order of index. -/
def unmatched (matches_ : List (Nat × Nat)) (cands : List Candidate) : List Candidate :=
  (cands.zipIdx.filter fun e => !matches_.any fun m => m.2 == e.2).map (·.1)

/-- Step 4 of a completion (R85 to R89). -/
def Glare.associate (g : Glare) (gate : Nat) (overload : Bool) : Glare :=
  let m := matchPairs gate g.tracks.toList g.candidates
  let g1 := { g with tracks := g.tracks.mapIdx fun i t => updateTrack m g.candidates i t }
  (unmatched m g.candidates).foldl (Glare.createTrack overload) g1

/-! ### States, ramp and zones (R78, R90 to R96) -/

/-- The hits in the history (R83). -/
def Track.hits (t : Track) : Nat := (List.range 8).countP t.history.getLsbD

/-- A slot with no track (R83). -/
def Track.freed : Track := {}

/-- Step 5: at most one transition, by the hit or miss just pushed (R90 to R92). -/
def Track.transition (f : TrackerGlare) (t : Track) : Track :=
  let hit := t.history.getLsbD 0
  match t.state with
  | .free => t
  | .tentative =>
    if hit then (if f.confirmHits ≤ t.hits then { t with state := .confirmed } else t)
    else if f.tentativeMiss ≤ t.misses then Track.freed else t
  | .confirmed =>
    if hit then t else if f.coastLimit ≤ t.misses then { t with state := .releasing } else { t with state := .coasting }
  | .coasting =>
    if hit then { t with state := .confirmed }
    else if f.coastLimit ≤ t.misses then { t with state := .releasing } else t
  | .releasing => if hit then { t with state := .confirmed } else t

/-- With tracking stopped: TENTATIVE tracks are freed, CONFIRMED and COASTING ones become RELEASING (R78). -/
def Track.letGo (t : Track) : Track :=
  match t.state with
  | .tentative => Track.freed
  | .confirmed | .coasting => { t with state := .releasing }
  | .free | .releasing => t

/-- The target of a track by its state (R93). -/
def Track.targetFor (f : TrackerGlare) (t : Track) : Nat :=
  match t.state with
  | .confirmed | .coasting => f.target
  | .free | .tentative | .releasing => 256

/-- The attenuation moves toward the target (R94). -/
def rampToward (f : TrackerGlare) (a target : Nat) : Nat :=
  if target < a then max target (a - f.slewDown) else if a < target then min target (a + f.slewUp) else a

/-- Step 6: the target, the ramp, and a RELEASING track at 256 becomes FREE (R92 to R94). -/
def Track.ramp (f : TrackerGlare) (t : Track) : Track :=
  match t.state with
  | .free => t
  | _ =>
    let target := t.targetFor f
    let t1 := { t with target := target, attenuation := rampToward f t.attenuation target }
    if t1.state = .releasing ∧ t1.attenuation = 256 then Track.freed else t1

/-- The zone of a track's box with a margin (R96). -/
def zoneOf (margin : Nat) (t : Track) : Zone where
  x0 := 64 * (t.box.x0 - margin)
  y0 := 64 * (t.box.y0 - margin)
  x1 := 64 * (min 29 (t.box.x1 + margin) + 1) - 1
  y1 := 64 * (min 19 (t.box.y1 + margin) + 1) - 1
  attenuation := t.attenuation

/-- Whether a track has an entry in the zone list (R95). -/
def Track.dims (t : Track) : Bool :=
  (t.state == .confirmed || t.state == .coasting || t.state == .releasing) && decide (t.attenuation < 256)

/-- Step 7: the zone list (R95). -/
def Glare.publish (g : Glare) (margin : Nat) : Glare :=
  { g with zones := (g.tracks.toList.filter Track.dims).map (zoneOf margin) }

/-- Steps 3 to 7 of one completion (R75); `overload` is the level of GLARE_OVERLOAD after step 2. -/
def Glare.complete (g : Glare) (f : TrackerGlare) (running overload : Bool) (map : List Bool) : Glare :=
  let g1 :=
    if running then
      let g2 := (g.formCandidates f.maxBlob map).associate f.gate overload
      { g2 with tracks := g2.tracks.map (Track.transition f) }
    else { g with tracks := g.tracks.map Track.letGo, candidates := [] }
  ({ g1 with tracks := g1.tracks.map (Track.ramp f), running := running }).publish f.margin

/-- Whether tracking runs at a completion (R77). -/
def trackingRuns (s : State) (side : Side) (f : TrackerGlare) : Bool :=
  decide (s.mode = .run) && decide ((s.unit side).light.dayNight = .night) && f.fromTable && f.enable

/-- One completion of a side's tracker (R75, R76, R82). -/
def State.trackerCompletion (s : State) (side : Side) (map : List Bool) : State :=
  let (read, s1) := s.latch .glare trackerWords
  let f := (read.map fun ws => trackerGlareOf ws side).getD trackerGlareFallback
  let running := trackingRuns s side f
  let total := map.countP id
  let s2 := s1.level (.cam side .glareOverload) (f.fromTable && decide (f.overload ≤ total)) [BitVec.ofNat 32 total]
  let overload := inSet s2.faults.conditions (.cam side .glareOverload)
  s2.modGlare side fun g => { g with hotTotal := total }.complete f running overload map

/-- The tracker of a side is cleared (R97). -/
def State.clearTracker (s : State) (side : Side) : State :=
  (s.modGlare side fun g =>
    { g with
      tracks := Vector.replicate 6 Track.freed
      candidates := []
      zones := []
      hotTotal := 0
      running := false }).deactivate (.cam side .glareOverload)

end Sys2Proof.Machine
end

