-- ==== Sys2Proof/Machine/LightControl.lean ====
section
/-! DEFINITION. The light controller (chapter 5): telemetry, qualification, and the backlight. -/

namespace Sys2Proof.Machine

/-! ### Telemetry (R100 to R102) -/

/-- A telemetry packet reaches the light controller of a side: its lux and its status byte (R100, R102). The
telemetry timeout is word 2 of TIMING. -/
def State.telemetry (s : State) (side : Side) (lux : Nat) (status : Byte) : State :=
  let (read, s1) := s.latch .timing [2]
  let ms := (read.map fun ws => bits (wordAt ws 2) 16 13).getD Config.fallbackTelemetryMs
  let s2 := s1.modLight side fun l =>
    { l with
      ambient := lux
      known := true
      stale := none
      holdPassed := false
      ambientDue := some (s1.clock + ms * 1000)
      status := status }
  (s2.deactivate (.disp side .telemetryLost)).level (.disp side .displayReported) (status != 0)
    [status.zeroExtend 32]

/-- The ambient timer runs out (R101). -/
def State.ambientLost (s : State) (side : Side) : State :=
  (s.modLight side fun l =>
    { l with known := false, ambientDue := none, stale := some s.clock, holdPassed := false }).activate
    (.disp side .telemetryLost) []

/-! ### Qualification (R103 to R107) -/

/-- The condition that points away from the current state (R104). -/
def oppositeHolds (f : QualFields) (l : Light) (scene : Nat) : Bool :=
  match l.dayNight with
  | .day => (!l.known || decide (l.ambient < f.luxNight)) && decide (scene < f.sceneNight)
  | .night => (l.known && decide (f.luxDay < l.ambient)) || decide (f.sceneDay < scene)

/-- The other day/night state. -/
def DayNight.other : DayNight → DayNight
  | .day => .night
  | .night => .day

/-- Qualification at one completion (R105 to R107). -/
def qualify (f : QualFields) (l : Light) (scene clock : Nat) : Light :=
  let holds := oppositeHolds f l scene
  match l.phase with
  | .idle => if holds then { l with phase := .debouncing clock } else l
  | .debouncing start =>
    if clock < start + f.debounceMs * 1000 then l
    else if holds then { l with phase := .validating clock } else { l with phase := .idle }
  | .validating start =>
    if !holds then { l with phase := .idle }
    else if clock < start + f.validateMs * 1000 then l
    else { l with dayNight := l.dayNight.other, phase := .idle }

/-- One completion of a side's light controller, with the scene level (R103). -/
def State.lightCompletion (s : State) (side : Side) (scene : Nat) : State :=
  let (read, s1) := s.latch .light [0, 1, 2, 3]
  s1.modLight side fun l =>
    match read with
    | none => { l with phase := .idle }
    | some ws => if l.force = .auto then qualify (qualFieldsOf ws) l scene s1.clock else { l with phase := .idle }

/-! ### FORCE_LIGHT (R109) -/

/-- The force setting takes effect (R109). -/
def Light.forced (l : Light) : Force → Light
  | .auto => { l with force := .auto, phase := .idle }
  | .day => { l with force := .day, dayNight := .day, phase := .idle }
  | .night => { l with force := .night, dayNight := .night, phase := .idle }

/-! ### Backlight (R111 to R114) -/

/-- A target under the night cap in NIGHT (R112, R113). -/
def capped (l : Light) (f : BacklightFields) (level : Nat) : Nat :=
  match l.dayNight with
  | .day => level
  | .night => min level f.nightCap

/-- Whether the hold time has passed at this output frame start (R113). -/
def holdOver (l : Light) (f : BacklightFields) (clock : Nat) : Bool :=
  l.holdPassed || decide (l.stale.getD 0 + f.holdMs * 1000 ≤ clock)

/-- The target when LIGHT was latched from its live bank (R112, R113). -/
def backlightTarget (l : Light) (f : BacklightFields) (clock : Nat) : Nat :=
  if l.known then capped l f (interpolate f.curve l.ambient)
  else if holdOver l f clock then capped l f f.fallbackLevel
  else capped l f l.backlight

/-- The level moves toward the target by at most 8 (R114). -/
def slew (level target : Nat) : Nat :=
  if level < target then min target (level + Config.backlightStep)
  else if target < level then max target (level - Config.backlightStep) else level

/-- The backlight at one output frame start (R111 to R114). -/
def Light.outputStart (l : Light) (f : Option BacklightFields) (clock : Nat) : Light :=
  match f with
  | none => { l with backlight := slew l.backlight Config.backlightDefault }
  | some b =>
    { l with
      backlight := slew l.backlight (backlightTarget l b clock)
      holdPassed := if l.known then l.holdPassed else holdOver l b clock }

/-- The light controller of a side at its display's output frame start (R111). -/
def State.backlightStart (s : State) (side : Side) : State :=
  let (read, s1) := s.latch .light backlightWords
  s1.modLight side fun l => l.outputStart (read.map backlightFieldsOf) s1.clock

end Sys2Proof.Machine
end

