-- ==== Sys2Proof/Machine/Selftest.lean ====
section
/-! DEFINITION. The self-test sequencer (chapter 7), with what it borrows: pattern requests (R4), frame slots
(R11), reference passes (R46, R47) and the self-test buffer (R56). -/

namespace Sys2Proof.Machine

/-! ### One value per step -/

/-- The value for a step. -/
def PerStep.get {α : Type} (p : PerStep α) : Step → α
  | .link => p.link
  | .ident => p.ident
  | .pattern => p.pattern
  | .develop => p.develop
  | .store => p.store

/-- Set the value for a step. -/
def PerStep.set {α : Type} (p : PerStep α) (st : Step) (a : α) : PerStep α :=
  match st with
  | .link => { p with link := a }
  | .ident => { p with ident := a }
  | .pattern => { p with pattern := a }
  | .develop => { p with develop := a }
  | .store => { p with store := a }

/-- Apply a function to each step's value. -/
def PerStep.map {α β : Type} (p : PerStep α) (f : α → β) : PerStep β :=
  ⟨f p.link, f p.ident, f p.pattern, f p.develop, f p.store⟩

/-- The five steps in order (R143). -/
def allSteps : List Step := [.link, .ident, .pattern, .develop, .store]

/-- The steps after a step (R143). -/
def laterSteps : Step → List Step
  | .link => [.ident, .pattern, .develop, .store]
  | .ident => [.pattern, .develop, .store]
  | .pattern => [.develop, .store]
  | .develop => [.store]
  | .store => []

/-- The step bits of R216: bit 0 LINK to bit 4 STORE. -/
def PerStep.stepBits (p : PerStep Bool) : Nat :=
  bitOf p.link + 2 * bitOf p.ident + 4 * bitOf p.pattern + 8 * bitOf p.develop + 16 * bitOf p.store

/-- The set of steps with the given step bits (R216). -/
def stepsOfBits (n : Nat) : PerStep Bool :=
  ⟨n.testBit 0, n.testBit 1, n.testBit 2, n.testBit 3, n.testBit 4⟩

/-- The code of an outcome (R118). -/
def StepOutcome.code : StepOutcome → Nat
  | .pass => 0
  | .fail => 1
  | .omitted => 2
  | .notSelected => 3

/-- Outcomes as in the SELFTEST_DONE detail, two bits a step (R118). -/
def outcomeBits (p : PerStep StepOutcome) : Nat :=
  p.link.code + 4 * p.ident.code + 16 * p.pattern.code + 64 * p.develop.code + 256 * p.store.code

/-! ### Pattern requests (R4, R147) -/

/-- Ingest sends a test-pattern request to the camera. -/
def Ingest.sendRequest (i : Ingest) (wanted : Bool) : Ingest := { i with sentRequests := i.sentRequests ++ [wanted] }

/-- The pattern request is withdrawn: *wanted = no* is sent when it is pending and the link is LOCKED (R4). -/
def Ingest.withdraw (i : Ingest) : Ingest :=
  let i1 := if i.patternPending ∧ i.link = .locked then i.sendRequest false else i
  { i1 with patternPending := false }

/-! ### Frame slots and reference passes (R11, R46) -/

/-- An IMMEDIATE reference pass begins with a fresh latch (R46). -/
def State.beginImmediate (s : State) (side : Side) : State :=
  let (w, s1) := s.latchCopies side
  s1.setPass side (.reference (ReferencePass.fresh w (.immediate s1.clock)))

/-- The sequencer asks ingest for a frame slot: granted at once in IDLE, held in RECEIVING; the frame in
reception is not taken (R11). -/
def State.askSlot (s : State) (side : Side) : State :=
  match (s.unit side).ingest.frame with
  | none => s.beginImmediate side
  | some f =>
    s.modIngest side fun i => { i with slotHeld := true, frame := some { f with slotEligible := false } }

/-- Whether a pass is a reference pass. -/
def Pass.isReference : Pass → Bool
  | .reference _ => true
  | _ => false

/-- A reference pass in progress is abandoned (R47). -/
def State.abandonReference (s : State) (side : Side) : State :=
  if (s.unit side).pass.isReference then s.setPass side .idle else s

/-- Whether a run is obtaining a reference pass: in DEVELOP, or in STORE before the write (R148, R149). -/
def Run.obtaining (r : Run) : Bool := (r.step == .develop || r.step == .store) && r.timerDue.isSome

/-- A run that is obtaining a reference pass and has neither a pass nor a held request, because its pass was
abandoned, asks for a slot again (R148). -/
def State.reaskSlot (s : State) (side : Side) : State :=
  match (s.unit side).sequencer.run with
  | none => s
  | some r =>
    if r.obtaining ∧ (s.unit side).pass.isReference = false ∧ (s.unit side).ingest.slotHeld = false then s.askSlot side
    else s

/-! ### The self-test buffer (R56) -/

/-- The transfers of an ended run run to their end unnoticed (R153). -/
def Transfer.disown : Transfer → Transfer
  | .write image _ => .write image false
  | .read _ => .read false

/-- Ask for a transfer; it waits until the one in progress has ended (R56). DESIGN CHOICE (log 21): when several
wait, they run first in, first out. -/
def State.askTransfer (s : State) (side : Side) (x : Transfer) : State :=
  s.modBuffer side fun b => { b with transfers := b.transfers ++ [x] }

/-! ### The end of a run (R151) -/

/-- Change the run in progress. -/
def State.modRun (s : State) (side : Side) (f : Run → Run) : State :=
  s.modSequencer side fun q => { q with run := q.run.map f }

/-- The outcomes of a run at its end: what is not settled is OMITTED (R153). -/
def Run.finalOutcomes (r : Run) : PerStep StepOutcome := r.outcomes.map fun o => o.getD .omitted

/-- The requests, the pass and the transfers of a run that ends are let go (R47, R147, R151, R153). -/
def State.releaseRun (s : State) (side : Side) : State :=
  let s1 := s.modIngest side fun i => { i.withdraw with slotHeld := false }
  (s1.abandonReference side).modBuffer side fun b => { b with transfers := b.transfers.map Transfer.disown }

/-- The run ends with outcomes: SELFTEST_DONE, then SELFTEST_FAIL when steps failed (R151). -/
def State.endRun (s : State) (side : Side) : State :=
  match (s.unit side).sequencer.run with
  | none => s
  | some r =>
    let s1 := (s.modSequencer side fun q => { q with run := none, last := r.finalOutcomes }).releaseRun side
    let s2 := s1.raise (.cam side .selftestDone) [BitVec.ofNat 32 (outcomeBits r.finalOutcomes)]
    if r.failures.stepBits = 0 then s2
    else s2.raise (.cam side .selftestFail) [BitVec.ofNat 32 r.failures.stepBits]

/-! ### Steps (R143 to R149) -/

/-- A step sets its fail flag and joins the run failures (R150). -/
def Sequencer.markFailure (q : Sequencer) (st : Step) : Sequencer :=
  { q with
    failFlags := q.failFlags.set st true
    run := q.run.map fun r => { r with failures := r.failures.set st true } }

/-- The outcome of a step is recorded; FAIL sets its flag (R150). -/
def Sequencer.recordOutcome (q : Sequencer) (st : Step) (o : StepOutcome) : Sequencer :=
  let q1 : Sequencer := { q with run := q.run.map fun r => { r with outcomes := r.outcomes.set st (some o) } }
  if o = .fail then q1.markFailure st else q1

/-- The step in progress, with its time limit, no frame start seen and its reference. -/
def Run.enter (r : Run) (st : Step) (due : Option Nat) (reference : Option Half) : Run :=
  { r with step := st, timerDue := due, startsSeen := 0, reference := reference, writeSig := none }

/-- What beginning a step comes to: the step is in progress, or its outcome is settled at once. -/
inductive Begun where
  | inProgress
  | settled (o : StepOutcome)
deriving DecidableEq, Repr

/-- The step LINK at its start (R144). -/
def State.beginLink (s : State) (side : Side) : Begun × State :=
  if (s.unit side).ingest.link = .noSignal then (.settled .fail, s)
  else (.inProgress, s.modRun side fun r => r.enter .link (some (s.clock + Config.stepTime)) none)

/-- A step's latch of its reference from the profile; none when the step is omitted (R143, 7.3). -/
def State.latchReference (s : State) (side : Side) (off : Nat) : Option Word × State :=
  let (read, s1) := s.latch side.profileKind [off]
  (read.map fun ws => wordAt ws off, s1)

/-- The step IDENT at its start (R145). -/
def State.beginIdent (s : State) (side : Side) : Begun × State :=
  match s.latchReference side 0 with
  | (none, s1) => (.settled .omitted, s1)
  | (some w, s1) =>
    (.inProgress, s1.modRun side fun r =>
      r.enter .ident (some (s1.clock + Config.stepTime)) (some (BitVec.ofNat 16 (bits w 0 16))))

/-- The step PATTERN at its start (R146): the request is sent when the link is LOCKED (R4). -/
def State.beginPattern (s : State) (side : Side) : Begun × State :=
  match s.latchReference side 9 with
  | (none, s1) => (.settled .omitted, s1)
  | (some w, s1) =>
    if (s1.unit side).ingest.link = .noSignal then (.settled .fail, s1)
    else
      (.inProgress,
        (s1.modIngest side fun i => { i.sendRequest true with patternPending := true }).modRun side fun r =>
          r.enter .pattern (some (s1.clock + Config.stepTime)) (some (BitVec.ofNat 16 (bits w 0 16))))

/-- The step DEVELOP at its start (R148). -/
def State.beginDevelop (s : State) (side : Side) : Begun × State :=
  match s.latchReference side 9 with
  | (none, s1) => (.settled .omitted, s1)
  | (some w, s1) =>
    (.inProgress, (s1.modRun side fun r =>
      r.enter .develop (some (s1.clock + Config.stepTime)) (some (BitVec.ofNat 16 (bits w 16 16)))).askSlot side)

/-- The step STORE at its start (R149): the write begins when the run has its reference image, otherwise a
reference pass is obtained first. -/
def State.beginStore (s : State) (side : Side) (image : Option Picture) : Begun × State :=
  match image with
  | some p => (.inProgress, (s.modRun side fun r => r.enter .store none none).askTransfer side (.write p true))
  | none =>
    (.inProgress, (s.modRun side fun r => r.enter .store (some (s.clock + Config.stepTime)) none).askSlot side)

/-- A selected step is omitted, or begins (R143). -/
def State.beginStep (s : State) (side : Side) (r : Run) (st : Step) : Begun × State :=
  match st with
  | .link => s.beginLink side
  | .ident => if r.failures.link then (.settled .omitted, s) else s.beginIdent side
  | .pattern => if r.failures.link then (.settled .omitted, s) else s.beginPattern side
  | .develop => s.beginDevelop side
  | .store => if r.failures.develop then (.settled .omitted, s) else s.beginStore side r.image

/-- The first of the later steps that is selected and not omitted begins; when none remains, the run ends
(R143). -/
def State.beginNext (s : State) (side : Side) : List Step → State
  | [] => s.endRun side
  | st :: rest =>
    match (s.unit side).sequencer.run with
    | none => s
    | some r =>
      if r.selection.get st then
        match s.beginStep side r st with
        | (.inProgress, s1) => s1
        | (.settled o, s1) => (s1.modSequencer side fun q => q.recordOutcome st o).beginNext side rest
      else s.beginNext side rest

/-- The step in progress is settled: a PATTERN request is withdrawn (R147), a slot request dropped and a pass in
progress abandoned (R148), and the next step begins. -/
def State.settle (s : State) (side : Side) (o : StepOutcome) : State :=
  match (s.unit side).sequencer.run with
  | none => s
  | some r =>
    let s1 := s.modIngest side fun i =>
      let i1 := if r.step = .pattern then i.withdraw else i
      { i1 with slotHeld := false }
    let s2 := s1.abandonReference side
    let s3 := s2.modSequencer side fun q =>
      { q.recordOutcome r.step o with run := (q.recordOutcome r.step o).run.map fun x => { x with timerDue := none } }
    s3.beginNext side (laterSteps r.step)

/-- PASS when two values are equal, otherwise FAIL. -/
def verdict (ok : Bool) : StepOutcome := if ok then .pass else .fail

/-! ### What the sequencer is told -/

/-- An accepted completion, with the frame's camera ID (R144, R145). -/
def State.acceptedCompletion (s : State) (side : Side) (id : Option Half) : State :=
  match (s.unit side).sequencer.run with
  | none => s
  | some r =>
    match r.step with
    | .link => s.settle side .pass
    | .ident => s.settle side (verdict (decide (id = r.reference)))
    | _ => s

/-- A pattern completion, with the frame signature; a frame whose start was not counted does not judge the
step (R146). -/
def State.patternCompletion (s : State) (side : Side) (signature : Half) : State :=
  match (s.unit side).sequencer.run with
  | none => s
  | some r =>
    if r.step = .pattern ∧ 1 ≤ r.startsSeen then
      s.settle side (verdict (decide (r.startsSeen ≤ 3) && decide (some signature = r.reference)))
    else s

/-- A frame start during PATTERN: the fourth fails the step (R146). -/
def State.patternFrameStart (s : State) (side : Side) : State :=
  match (s.unit side).sequencer.run with
  | none => s
  | some r =>
    if r.step = .pattern then
      let s1 := s.modRun side fun x => { x with startsSeen := x.startsSeen + 1 }
      if r.startsSeen + 1 = 4 then s1.settle side .fail else s1
    else s

/-- A reference pass has ended with its develop signature and reference image (R148, R149). The core is IDLE
again. -/
def State.referenceDone (s : State) (side : Side) (p : ReferencePass) : State :=
  let s0 := s.setPass side .idle
  match (s0.unit side).sequencer.run with
  | none => s0
  | some r =>
    if r.obtaining then
      let s1 := s0.modRun side fun x => { x with image := some p.image }
      if r.step = .develop then s1.settle side (verdict (decide (some p.signature = r.reference)))
      else (s1.modRun side fun x => { x with timerDue := none }).askTransfer side (.write p.image true)
    else s0

/-- The step timer runs out: the step fails (R144 to R149). -/
def State.stepTimeout (s : State) (side : Side) : State := s.settle side .fail

/-- The write of the self-test buffer has ended; a completed write of the run in progress starts the read-back
(R149). -/
def State.writeDone (s : State) (side : Side) (ok : Bool) : State :=
  match (s.unit side).buffer.transfers with
  | .write image owned :: rest =>
    let s1 := s.modBuffer side fun _ => ⟨if ok then some image else none, rest⟩
    if owned then
      if ok then
        (s1.modRun side fun r => { r with writeSig := some (imageSignature image) }).askTransfer side (.read true)
      else s1.settle side .fail
    else s1
  | _ => s

/-- The read-back has ended: it passes the step when its signature equals the write signature; a read of an
EMPTY buffer fails (R56, R149). -/
def State.readDone (s : State) (side : Side) (data : Option Picture) : State :=
  match (s.unit side).buffer.transfers with
  | .read owned :: rest =>
    let s1 := s.modBuffer side fun b => { b with transfers := rest }
    if owned then
      match (s.unit side).sequencer.run, data with
      | some r, some p =>
        s1.settle side (verdict ((s.unit side).buffer.content.isSome && decide (some (imageSignature p) = r.writeSig)))
      | _, _ => s1.settle side .fail
    else s1
  | _ => s

/-- A loss of lock during a run (R152): the flag of LINK is set, and the step in progress is acted on. The
steps that borrow a reference pass ask again when their pass was abandoned. -/
def State.lockLossInRun (s : State) (side : Side) : State :=
  match (s.unit side).sequencer.run with
  | none => s
  | some r =>
    let s1 := s.modSequencer side fun q => q.markFailure .link
    match r.step with
    | .link => s1.settle side .fail
    | .ident => s1.settle side .omitted
    | .pattern => s1.settle side .omitted
    | .develop | .store => s1.reaskSlot side

/-- A run as it is accepted (R142): no step settled but those not selected, no failures, no image. -/
def Run.start (selection : PerStep Bool) : Run where
  step := .link
  selection := selection
  outcomes := selection.map fun b => if b then none else some .notSelected
  failures := ⟨false, false, false, false, false⟩
  timerDue := none
  startsSeen := 0
  reference := none
  image := none
  writeSig := none

/-- A run begins with its first selected step (R142). -/
def State.startRun (s : State) (side : Side) (selection : PerStep Bool) : State :=
  (s.modSequencer side fun q => { q with run := some (Run.start selection) }).beginNext side allSteps

end Sys2Proof.Machine
end

