-- ==== Sys2Proof/Machine/OutputTiming.lean ====
section
/-! DEFINITION. Output timing of a display (3.6): when the next output frame start is due. -/

namespace Sys2Proof.Machine

/-- The start that follows a pending frame end in TRACKING, when it lies within the displays' limits (R72). -/
def trackingStart (start : Nat) (frameEnd : Option Nat) (lead : Nat) : Option Nat :=
  match frameEnd with
  | none => none
  | some e =>
    let due := max (e + lead) (start + Config.outputPeriodMin)
    if due ≤ start + Config.outputPeriodMax then some due else none

/-- The next output start in TRACKING: after the pending frame end, or the fallback start (R72). -/
def trackingDue (start : Nat) (frameEnd : Option Nat) (lead : Nat) : Nat :=
  (trackingStart start frameEnd lead).getD (start + Config.outputPeriodMax)

/-- The next output start is set again by R72; it needs a previous output start. -/
def Composer.setTrackingDue (c : Composer) : Composer :=
  { c with nextOut := (c.prevOut.map fun p => trackingDue p c.pendingEnd c.latched.lead).getD c.nextOut }

/-- The next output start is set by R70: the previous output start plus the latched nominal period. -/
def Composer.setFreeDue (c : Composer) : Composer :=
  { c with nextOut := (c.prevOut.map fun p => p + c.latched.nominal).getD c.nextOut }

/-- Whether the start that is due in TRACKING is a fallback start (R72). -/
def Composer.fallbackDue (c : Composer) : Bool :=
  (c.prevOut.bind fun p => trackingStart p c.pendingEnd c.latched.lead).isNone

/-- A completion reported to the composer: the hold timer restarts (R60), and the frame end becomes pending and
sets the due time again in TRACKING (R69, R72). -/
def Composer.completed (c : Composer) (clock : Nat) : Composer :=
  let c1 := { c with completion := some (BitVec.ofNat 32 clock), pendingEnd := some clock }
  if c.timing = .tracking then c1.setTrackingDue else c1

/-- A camera period arrives: the in-window count, and the entry to or return from TRACKING (R71, R73). -/
def Composer.periodArrival (c : Composer) (period : Nat) : Composer :=
  if Config.outputPeriodMin ≤ period ∧ period ≤ Config.outputPeriodMax then
    let c1 := { c with inWindow := bump c.inWindow 4 }
    if c1.inWindow = 4 ∧ c.timing = .free ∧ c.latched.track = true then
      ({ c1 with timing := .tracking }).setTrackingDue
    else c1
  else
    let c1 := { c with inWindow := 0 }
    if c.timing = .tracking then ({ c1 with timing := .free }).setFreeDue else c1

/-- The timing state at an output frame start: a fallback start, or a latched output mode FREE, returns it to
FREE (R72, R73). -/
def Composer.timingAfter (c : Composer) (latched : OutputTiming) : TimingState :=
  if c.timing = .tracking ∧ c.fallbackDue = false ∧ latched.track = true then .tracking else .free

/-- The composer's timing at an output frame start taken at `clock` (R69, R70, R72, R73). -/
def Composer.outputStart (c : Composer) (latched : OutputTiming) (clock : Nat) : Composer :=
  let c1 : Composer :=
    { c with
      timing := c.timingAfter latched
      latched := latched
      pendingEnd := none
      prevOut := some clock
      period := (c.prevOut.map fun p => some (measured (BitVec.ofNat 32 clock - BitVec.ofNat 32 p))).getD c.period }
  if c1.timing = .tracking then c1.setTrackingDue else c1.setFreeDue

end Sys2Proof.Machine
end

