-- ==== Sys2Proof/Machine/IngestSteps.lean ====
section
/-! DEFINITION. Camera Ingest (chapter 1): the steps of a camera link, and ingest's timers. -/

namespace Sys2Proof.Machine

/-! ### Ends of a frame -/

/-- The codes of FRAME_ABORT's reasons (R118). -/
inductive AbortReason where
  | noEnd
  | lineErrors
  | outOfOrder
  | short
  | long
  | unexpectedPattern
deriving DecidableEq, Repr

/-- The code of a reason (R118). -/
def AbortReason.code : AbortReason → Word
  | .noEnd => 1
  | .lineErrors => 2
  | .outOfOrder => 3
  | .short => 4
  | .long => 5
  | .unexpectedPattern => 6

/-- The discarded treatments (1.1). -/
def Treatment.discarded : Treatment → Bool
  | .stalled | .unexpected => true
  | _ => false

/-- The frame record is removed, or changed. -/
def State.setFrame (s : State) (side : Side) (f : Option FrameRecord) : State :=
  s.modIngest side fun i => { i with frame := f }

/-- LINE_CRC is raised at the end of a frame with concealed lines (R15). -/
def State.reportConcealed (s : State) (side : Side) (f : FrameRecord) : State :=
  if 1 ≤ f.concealed then s.raise (.cam side .lineCrc) [BitVec.ofNat 32 f.concealed] else s

/-- The pass that follows the frame in reception is abandoned: a camera pass, or a PACED reference pass (R27). -/
def State.abandonFramePass (s : State) (side : Side) : State :=
  match (s.unit side).pass with
  | .idle => s
  | .camera _ => s.setPass side .idle
  | .reference p =>
    match p.pacing with
    | .paced => s.setPass side .idle
    | .immediate _ => s

/-- An abort (R18): FRAME_ABORT and LINE_CRC, the filling buffers FREE, the recovery counts 0, the pass
abandoned, the frame record removed. The sequencer is told by `State.reaskSlot` once ingest has settled. -/
def State.abortFrame (s : State) (side : Side) (f : FrameRecord) (reason : AbortReason) : State :=
  let s1 := (s.raise (.cam side .frameAbort) [reason.code]).reportConcealed side f
  (((s1.freeFilling side).clearRecovery side).abandonFramePass side).setFrame side none

/-- An abort made by a line or a frame end; the sequencer then asks again for a slot it lost (R148). -/
def State.abortAndReask (s : State) (side : Side) (f : FrameRecord) (reason : AbortReason) : State :=
  (s.abortFrame side f reason).reaskSlot side

/-- A discard (R13): the filling buffers FREE, the recovery counts 0, the pass abandoned. -/
def State.discardFrame (s : State) (side : Side) (f : FrameRecord) : State :=
  (((s.freeFilling side).clearRecovery side).abandonFramePass side).setFrame side (some f)

/-! ### Frame starts (R5, R6, R21, R23, R24) -/

/-- Ingest's frame-start latch (R6). -/
def State.latchIngest (s : State) (side : Side) : (IngestProfile × IngestTiming) × State :=
  let (p, s1) := s.latch side.profileKind [0, 1]
  let (t, s2) := s1.latch .timing [0, 1, 2]
  (((p.map ingestProfileOf).getD ingestProfileFallback, (t.map ingestTimingOf).getD ingestTimingFallback), s2)

/-- The period is measured when there is a previous stamp, checked against the window, and handed to the output
composer (R21, R71). -/
def State.measurePeriod (s : State) (side : Side) (t : IngestTiming) : State :=
  match (s.unit side).ingest.prevStart with
  | none => s
  | some prev =>
    let p := since prev s.now
    let s1 := s.modIngest side fun i => { i with lastPeriod := some (measured p) }
    let s2 := s1.level (.cam side .period) (decide (p.toNat < t.periodMin) || decide (t.periodMax < p.toNat)) [p]
    s2.modComposer side fun c => c.periodArrival p.toNat

/-- The stamps and the skew of a frame start (R21, R23). -/
def State.stampFrameStart (s : State) (side : Side) : State :=
  let s1 := s.modIngest side fun i => { i with prevStart := some s.now }
  match side with
  | .left => { s1 with latestStartL := some s.now }
  | .right => { s1 with skew := s.latestStartL.map fun l => measured (since l s.now) }

/-- A new frame record (R5). -/
def newFrame (s : State) (side : Side) (p : IngestProfile) (t : IngestTiming) : FrameRecord where
  start := s.now
  treatment := .undecided
  developed := decide (s.mode = .run)
  counter := none
  cameraId := none
  nextLine := 0
  concealed := 0
  profile := p
  timing := t
  signature := crcInit
  lastLine := []
  slotEligible := (s.unit side).ingest.slotHeld

/-- The frame that a frame start finds in reception ends: by abort, or silently when it was discarded (R5). -/
def State.endBefore (s : State) (side : Side) : State :=
  match (s.unit side).ingest.frame with
  | none => s
  | some f => if f.treatment.discarded then s.setFrame side none else s.abortFrame side f .noEnd

/-- The core's part of a developed frame's start: the latch, a camera pass, and a FILLING buffer in each of the
side's rings (R27, R28, R50). An IMMEDIATE reference pass is abandoned. -/
def State.beginPass (s : State) (side : Side) : State :=
  let (w, s1) := s.latchCopies side
  (s1.setPass side (.camera (CameraPass.fresh w))).modRings side fun r => r.beginFilling (w.record s1.now)

/-- A frame start taken in LOCKED (R5). DESIGN CHOICE (log 8): the sequencer is told last, so the profile latch of a
DEVELOP step that begins when PATTERN fails at its fourth frame start (R146) comes after the latches of ingest and
the core; R157 leaves that order open. -/
def State.takeFrameStart (s : State) (side : Side) : State :=
  let s1 := s.endBefore side
  let ((p, t), s2) := s1.latchIngest side
  let s3 := (s2.modIngest side fun i => { i with silentDue := some (s2.clock + t.silentMs * 1000) }).deactivate
    (.cam side .silent)
  let s4 := ((s3.measurePeriod side t).stampFrameStart side)
  let f := newFrame s4 side p t
  let s5 := s4.setFrame side (some f)
  let s6 := if f.developed then s5.beginPass side else s5
  (s6.reaskSlot side).patternFrameStart side

/-! ### The embedded line (R7 to R13) -/

/-- The low 8 bits of a code of the embedded line. -/
def reportByte (codes : List Code) (i : Nat) : Byte := (codes.getD i 0).truncate 8

/-- The camera ID of the embedded line: high byte, low byte. -/
def reportId (codes : List Code) : Half :=
  ((reportByte codes 0).zeroExtend 16 <<< 8) ||| (reportByte codes 1).zeroExtend 16

/-- CAMERA_ID and CAMERA_REPORTED are updated at every check-good embedded line (R8). -/
def State.checkCamera (s : State) (side : Side) (f : FrameRecord) (id : Half) (status : Byte) : State :=
  (s.level (.cam side .cameraId) (f.profile.idCheck && decide (id ≠ f.profile.expectedId)) [id.zeroExtend 32]).level
    (.cam side .cameraReported) (status != 0) [status.zeroExtend 32]

/-- Whether a counter repeats that of the frame before (R9). -/
def repeats (expected : Option Byte) (counter : Byte) : Bool :=
  match expected with
  | none => false
  | some e => counter == e - 1

/-- A counter that passes: COUNTER_SKIP when frames are missing, and the expected counter moves on (R9). -/
def State.passCounter (s : State) (side : Side) (counter : Byte) : State :=
  let s1 :=
    match (s.unit side).ingest.expected with
    | none => s
    | some e => if e = counter then s else s.raise (.cam side .counterSkip) [(counter - e).zeroExtend 32]
  s1.modIngest side fun i => { i with expected := some (counter + 1) }

/-- The frame is consumed as PATTERN: the filling buffers FREE, the pass abandoned (R10, R13). -/
def State.consumePattern (s : State) (side : Side) (f : FrameRecord) : State :=
  ((s.freeFilling side).abandonFramePass side).setFrame side (some { f with treatment := .pattern })

/-- The frame is consumed as SLOT: the held request is granted, and a PACED reference pass begins with the
working copies of the camera pass (R11, R13, R46). -/
def State.consumeSlot (s : State) (side : Side) (f : FrameRecord) : State :=
  let s1 := (s.freeFilling side).modIngest side fun i => { i with slotHeld := false }
  let (w, s2) :=
    match (s1.unit side).pass with
    | .camera p => (p.copies, s1)
    | _ => s1.latchCopies side
  (s2.setPass side (.reference (ReferencePass.fresh w .paced))).setFrame side (some { f with treatment := .slot })

/-- The frame is ACCEPTED: a developed frame's counter goes into the records of the FILLING buffers (R12, R50). -/
def State.acceptFrame (s : State) (side : Side) (f : FrameRecord) (counter : Byte) : State :=
  (s.modRings side fun r => r.setCounter counter).setFrame side (some { f with treatment := .accepted })

/-- The decisions after the counter has passed (R7, orders 3 to 5). -/
def State.routeFrame (s : State) (side : Side) (f : FrameRecord) (counter : Byte) (testPattern : Bool) : State :=
  if testPattern then
    if (s.unit side).ingest.patternPending then s.consumePattern side f
    else
      (s.raise (.cam side .frameAbort) [AbortReason.unexpectedPattern.code]).discardFrame side
        { f with treatment := .unexpected }
  else if (s.unit side).ingest.slotHeld ∧ f.slotEligible = true then s.consumeSlot side f
  else s.acceptFrame side f counter

/-- A check-good embedded line settles the frame's treatment (R7). -/
def State.settleFrame (s : State) (side : Side) (f : FrameRecord) (codes : List Code) : State :=
  let id := reportId codes
  let counter := reportByte codes 2
  let f1 := { f with cameraId := some id, counter := some counter, nextLine := 1 }
  let s1 := s.checkCamera side f id (reportByte codes 4)
  if repeats (s1.unit side).ingest.expected counter then
    (s1.activate (.cam side .counterStall) [counter.zeroExtend 32]).discardFrame side { f1 with treatment := .stalled }
  else (s1.passCounter side counter).routeFrame side f1 counter ((reportByte codes 3).getLsbD 0)

/-! ### Active lines (R14, R15, R19) -/

/-- A line of zero codes (R15). -/
def zeroLine : List Code := List.replicate Config.sensorWidth 0

/-- The codes of a taken line as passed on: a check-bad line is concealed (R15). -/
def passedOn (f : FrameRecord) (good : Bool) (codes : List Code) : List Code :=
  if good then codes else if f.nextLine = 1 then zeroLine else f.lastLine

/-- The frame signature takes the sample points of pixel row `y`, for ACCEPTED and PATTERN frames (R19). -/
def signLine (f : FrameRecord) (y : Nat) (codes : List Code) : Half :=
  if (f.treatment = .accepted ∨ f.treatment = .pattern) ∧ gridRow y = true then
    gridColumns.foldl (fun c x => crcFeed c (crcPair (codes.getD x 0).toNat)) f.signature
  else f.signature

/-- The frame record after a line has been taken and passed on. -/
def FrameRecord.takeLine (f : FrameRecord) (good : Bool) (codes : List Code) : FrameRecord :=
  { f with
    nextLine := f.nextLine + 1
    concealed := f.concealed + bitOf (!good)
    signature := signLine f (f.nextLine - 1) codes
    lastLine := codes }

/-- A final developed row goes into the statistics and into both views' FILLING buffers (R41 to R43). -/
def State.takeRow (s : State) (side : Side) (w : WorkingCopies) (row : Nat × List Developed) : State :=
  s.modUnit side fun u =>
    { u with
      pass := match u.pass with
        | .camera p => .camera (p.takeRow row.1 row.2)
        | other => other
      main := { u.main with ring := u.main.ring.writeRow w.mainWindow side.mainView.rows row.1 row.2 }
      wide := { u.wide with ring := u.wide.ring.writeRow w.wideWindow side.wideView.rows row.1 row.2 } }

/-- The core takes the line of pixel row `y`: a camera pass develops the rows that become final; a PACED
reference pass develops the same row of the reference frame (R27, R47). -/
def State.developLine (s : State) (side : Side) (y : Nat) (codes : List Code) : State :=
  match (s.unit side).pass with
  | .idle => s
  | .camera p =>
    let line := codes.map (sampleOf p.copies.profile)
    ((p.finalRows y line).foldl (fun s' row => s'.takeRow side p.copies row) s).modUnit side fun u =>
      { u with pass := match u.pass with
        | .camera q => .camera (q.keepLine line)
        | other => other }
  | .reference p =>
    match p.pacing with
    | .paced => s.setPass side (.reference (p.takeRow y))
    | .immediate _ => s

/-- A line that carries the expected index is taken (R14, R15). -/
def State.takeLine (s : State) (side : Side) (f : FrameRecord) (good : Bool) (codes : List Code) : State :=
  let passed := passedOn f good codes
  let f1 := f.takeLine good passed
  if f1.profile.lineErrorLimit < f1.concealed then s.abortAndReask side f1 .lineErrors
  else
    let s1 := s.setFrame side (some f1)
    if f.treatment = .accepted ∧ f.developed = true ∨ f.treatment = .slot then
      s1.developLine side (f.nextLine - 1) passed
    else s1

/-- A line arrives, with its index (R7, R13, R14). -/
def State.lineArrives (s : State) (side : Side) (index : Nat) (good : Bool) (codes : List Code) : State :=
  match (s.unit side).ingest.frame with
  | none => s
  | some f =>
    match f.treatment with
    | .stalled | .unexpected => s
    | .undecided =>
      if index ≠ 0 then s.abortAndReask side f .outOfOrder
      else if good = false then s.abortAndReask side f .lineErrors
      else s.settleFrame side f codes
    | .accepted | .pattern | .slot =>
      if f.nextLine = 1281 then s.abortAndReask side f .long
      else if index ≠ f.nextLine then s.abortAndReask side f .outOfOrder
      else s.takeLine side f good codes

/-! ### Completions (R17, R20, R22) -/

/-- Frozen detection at the completion of an accepted frame (R20). -/
def State.detectFrozen (s : State) (side : Side) (f : FrameRecord) : State :=
  let i := (s.unit side).ingest
  let same := decide (i.lastSignature = some f.signature)
  let run := if same then bump i.identicalRun 255 else 0
  let s1 := s.modIngest side fun j => { j with identicalRun := run, lastSignature := some f.signature }
  let s2 := if same then s1 else s1.deactivate (.cam side .frozen)
  if f.profile.frozenCount ≤ run + 1 then s2.activate (.cam side .frozen) [BitVec.ofNat 32 (run + 1)] else s2

/-- The statistics of a camera pass are published to the glare tracker and then to the light controller (R44,
R77), and the core returns to IDLE. -/
def State.publish (s : State) (side : Side) : State :=
  match (s.unit side).pass with
  | .camera p =>
    (((s.setPass side .idle).trackerCompletion side p.hotMap).lightCompletion side p.sceneLevel)
  | _ => s

/-- The end of a PACED reference pass at the completion of its slot frame (R47). -/
def State.endPaced (s : State) (side : Side) : State :=
  match (s.unit side).pass with
  | .reference p =>
    match p.pacing with
    | .paced => s.referenceDone side p
    | .immediate _ => s
  | _ => s

/-- The notices of a completion by treatment: pictures, statistics and recovery (R17). -/
def State.completeViews (s : State) (side : Side) (f : FrameRecord) : State :=
  if f.treatment = .accepted ∧ f.developed = true then (s.modViews side ViewUnit.complete).publish side else s

/-- What the sequencer is told of a completion (R17). -/
def State.tellSequencer (s : State) (side : Side) (f : FrameRecord) : State :=
  match f.treatment with
  | .accepted => s.acceptedCompletion side f.cameraId
  | .pattern => s.patternCompletion side f.signature
  | .slot => s.endPaced side
  | _ => s

/-- A completion (R17). -/
def State.completeFrame (s : State) (side : Side) (f : FrameRecord) : State :=
  let s1 := ((s.setFrame side none).deactivate (.cam side .counterStall)).reportConcealed side f
  let s2 := s1.modIngest side fun i => { i with lastActive := some (measured (since f.start s1.now)) }
  let s3 := if f.treatment = .accepted then s2.detectFrozen side f else s2
  let s4 := s3.completeViews side f
  (s4.modComposer side fun c => c.completed s4.clock).tellSequencer side f

/-- A frame end is taken (R13, R16). -/
def State.takeFrameEnd (s : State) (side : Side) : State :=
  match (s.unit side).ingest.frame with
  | none => s
  | some f =>
    if f.treatment.discarded then s.setFrame side none
    else if f.nextLine = 1281 then s.completeFrame side f
    else s.abortAndReask side f .short

/-! ### The camera link (R2, R3) -/

/-- The frame in reception ends at a loss of lock: by abort with NO_END, or silently (R2). -/
def State.endAtLoss (s : State) (side : Side) : State := s.endBefore side

/-- CI-L's latest frame start stamp is emptied (R2). -/
def State.emptyLatest (s : State) (side : Side) : State :=
  match side with
  | .left => { s with latestStartL := none }
  | .right => s

/-- A held slot request is granted at once at a loss of lock (R2). -/
def State.grantHeld (s : State) (side : Side) : State :=
  if (s.unit side).ingest.slotHeld then
    (s.modIngest side fun i => { i with slotHeld := false }).beginImmediate side
  else s

/-- A loss of lock in LOCKED (R2, R152). -/
def State.loseLock (s : State) (side : Side) : State :=
  let s1 := (s.modIngest side fun i => { i with link := .noSignal }).activate (.cam side .linkLost) []
  let s2 := (((s1.endAtLoss side).clearTracker side).emptyLatest side)
  let s3 := (s2.modIngest side fun i => { i with patternPending := false }).grantHeld side
  s3.lockLossInRun side

/-- Lock in NO_SIGNAL: a camera path restart (R3). -/
def State.gainLock (s : State) (side : Side) : State :=
  let s1 := s.modIngest side fun i =>
    { i with
      link := .locked
      expected := none
      lastSignature := none
      identicalRun := 0
      prevStart := none
      lastPeriod := none }
  (((s1.deactivate (.cam side .linkLost)).deactivate (.cam side .counterStall)).deactivate
    (.cam side .frozen)).clearTracker side

/-! ### The meanings of the camera link's steps -/

/-- Steps that answer a next state. -/
abbrev Answer := Host.Outcome State Fault Refusal

/-- LINK_LOST (R2). -/
def execLinkLost (t : Time) (side : Side) (s : State) : Answer :=
  let s0 := s.advance t
  .next (if (s0.unit side).ingest.link = .locked then s0.loseLock side else s0)

/-- LINK_LOCK (R3). -/
def execLinkLock (t : Time) (side : Side) (s : State) : Answer :=
  let s0 := s.advance t
  .next (if (s0.unit side).ingest.link = .noSignal then s0.gainLock side else s0)

/-- FRAME_START (R5): not taken in NO_SIGNAL (R2). -/
def execFrameStart (t : Time) (side : Side) (s : State) : Answer :=
  let s0 := s.advance t
  .next (if (s0.unit side).ingest.link = .locked then s0.takeFrameStart side else s0)

/-- EMBEDDED_LINE (R7): the line with index 0. -/
def execEmbeddedLine (t : Time) (side : Side) (good : Bool) (codes : List Code) (s : State) : Answer :=
  let s0 := s.advance t
  .next (if (s0.unit side).ingest.link = .locked then s0.lineArrives side 0 good codes else s0)

/-- ACTIVE_LINE (R14). -/
def execActiveLine (t : Time) (side : Side) (index : Nat) (good : Bool) (codes : List Code) (s : State) : Answer :=
  let s0 := s.advance t
  .next (if (s0.unit side).ingest.link = .locked then s0.lineArrives side index good codes else s0)

/-- FRAME_END (R16). -/
def execFrameEnd (t : Time) (side : Side) (s : State) : Answer :=
  let s0 := s.advance t
  .next (if (s0.unit side).ingest.link = .locked then s0.takeFrameEnd side else s0)

/-! ### Ingest's and the core's timers -/

/-- SILENT_TIMER_EXPIRY (R24). -/
def execSilentTimerExpiry (t : Time) (side : Side) (s : State) : Answer :=
  let s0 := s.advance t
  .next (if timeUp (s0.unit side).ingest.silentDue s0.clock then
      (s0.modIngest side fun i => { i with silentDue := none }).activate (.cam side .silent) []
    else s0)

/-- A stamp that has stood 2^31 µs is emptied (R21, R60). -/
def expireStamp (now : Time) (stamp : Option Time) : Option Time :=
  match stamp with
  | none => none
  | some p => if Config.stampLife ≤ (since p now).toNat then none else some p

/-- FRAME_START_STAMP_EXPIRY (R21): the previous stamp of the side and, for CI-L, the latest stamp. -/
def execFrameStartStampExpiry (t : Time) (side : Side) (s : State) : Answer :=
  let s0 := s.advance t
  let s1 := s0.modIngest side fun i => { i with prevStart := expireStamp s0.now i.prevStart }
  .next (match side with
    | .left => { s1 with latestStartL := expireStamp s0.now s0.latestStartL }
    | .right => s1)

/-- REFERENCE_PASS_END (R47): an IMMEDIATE pass ends 12,000 µs after it began. -/
def execReferencePassEnd (t : Time) (side : Side) (s : State) : Answer :=
  let s0 := s.advance t
  .next (match (s0.unit side).pass with
    | .reference p =>
      match p.pacing with
      | .immediate began =>
        if began + Config.immediatePassTime ≤ s0.clock then s0.referenceDone side p.takeAll else s0
      | .paced => s0
    | _ => s0)

end Sys2Proof.Machine
end

