-- ==== Sys2Proof/Machine/Output.lean ====
section
/-! DEFINITION. The output composer (3.3 to 3.5, 9.4, 9.6): the work of an output frame start, the ends of DDR
transfers, what the regions show, and the frame trailer. -/

namespace Sys2Proof.Machine

/-! ### Codes -/

/-- The code of a view state in trailers and GET_STATUS (R193, R197). -/
def ViewState.code : ViewState → Nat
  | .notReady => 0
  | .live => 1
  | .holding => 2
  | .lost => 3

/-- The code of a curve used (R193). -/
def CurveUsed.code : CurveUsed → Nat
  | .day => 0
  | .night => 1
  | .fallback => 2

/-- The code of a day/night state (R193). -/
def DayNight.code : DayNight → Nat
  | .day => 0
  | .night => 1

/-- The code of a force setting (R193). -/
def Force.code : Force → Nat
  | .auto => 0
  | .day => 1
  | .night => 2

/-- The code of a timing state (R193). -/
def TimingState.code : TimingState → Nat
  | .free => 0
  | .tracking => 1

/-- The code of the device mode (R193). -/
def Mode.code : Mode → Nat
  | .config => 0
  | .run => 1

/-- Day/night state and force setting in one byte (R193, R208). -/
def lightByte (l : Light) : Nat := l.dayNight.code + 16 * l.force.code

/-! ### Latches of an output frame start (R59) -/

/-- The limits of a view, from what was read of VIEW (R59). -/
def limitsFor (read : Option (List (Nat × Word))) (v : View) : ViewLimits :=
  (read.map fun ws => viewLimitsOf ws v).getD {}

/-- The VIEW latch of a composer: the limits of its two views. -/
def State.latchLimits (s : State) (side : Side) : State :=
  let (read, s1) := s.latch .view (composerViewWords side)
  s1.modUnit side fun u =>
    { u with
      main := { u.main with limits := limitsFor read side.mainView }
      wide := { u.wide with limits := limitsFor read side.wideView } }

/-- The POLICY latch of a composer: the valid entries of the whole table (R131). -/
def State.latchPolicy (s : State) (side : Side) : State :=
  let (read, s1) := s.latch .policy ((List.range 16).map (2 + ·))
  s1.modComposer side fun c => { c with policy := (read.map policyOf).getD [] }

/-- The TIMING latch of a composer: its display's output timing (R69). -/
def State.latchOutputTiming (s : State) (side : Side) : OutputTiming × State :=
  let (read, s1) := s.latch .timing (composerTimingWords side)
  ((read.map fun ws => outputTimingOf ws side).getD {}, s1)

/-! ### View states (R62 to R65) -/

/-- The detail of VIEW_LOST: the cause (R118). -/
def causeHold : Word := 1

/-- The detail of VIEW_LOST for a DEGRADE loss (R118). -/
def causeDegrade : Word := 2

/-- Whether the hold timer is greater than the hold limit; with no completion stamp it is beyond every limit
(R60). -/
def holdBeyond (completion : Option Time) (now : Time) (limits : ViewLimits) : Bool :=
  match completion with
  | none => true
  | some c => decide (limits.holdMs * 1000 < (since c now).toNat)

/-- The outcome of an output frame start for a view in LIVE or HOLDING (R62). -/
def shownOutcome (reaction : Reaction) (beyond newBuffer : Bool) : ViewState × Option Word :=
  if reaction = .degrade then (.lost, some causeDegrade)
  else if beyond then (.lost, some causeHold)
  else if newBuffer then (.live, none)
  else (.holding, none)

/-- Whether a view in LOST becomes LIVE (R63); the ring is the one after the advance. -/
def recovers (u : ViewUnit) (reaction : Reaction) : Bool :=
  decide (u.limits.recoveryFrames ≤ u.recovery) && decide (reaction ≠ .degrade) && u.ring.has .shown

/-- The new view state at an output frame start, and the cause of VIEW_LOST when the view enters LOST by R62
(R62 to R64). -/
def viewOutcome (mode : Mode) (u : ViewUnit) (reaction : Reaction) (beyond newBuffer : Bool) :
    ViewState × Option Word :=
  match mode with
  | .config => (.notReady, none)
  | .run =>
    match u.state with
    | .live | .holding => shownOutcome reaction beyond newBuffer
    | .lost => (if recovers u reaction then .live else .lost, none)
    | .notReady => (.notReady, none)

/-- Whether a region shows a picture in a view state. -/
def ViewState.showsPicture : ViewState → Bool
  | .live | .holding => true
  | .lost | .notReady => false

/-- The region as the output frame starts: the read of the SHOWN buffer begins in LIVE and HOLDING (R55, R66). -/
def regionAtStart (u : ViewUnit) : Region :=
  match u.state with
  | .notReady => .grey
  | .lost => .lost
  | .live | .holding =>
    match u.ring.find .shown with
    | some b => .reading b.picture (decide (u.reaction = .warn))
    | none => .lost

/-- The latency of a view whose region shows a picture: the age of the SHOWN buffer's frame (R68). -/
def latencyOf (u : ViewUnit) (now : Time) : Option Word :=
  if u.state.showsPicture then ((u.ring.find .shown).bind (·.record)).map fun r => since r.capture now else none

/-- The reaction, the advance of the ring and the clearing of the recovery count by DEGRADE (R53, R59, R61). -/
def ViewUnit.turn (u : ViewUnit) (reaction : Reaction) : ViewUnit :=
  { u with
    reaction := reaction
    recovery := if reaction = .degrade then 0 else u.recovery
    ring := u.ring.advance }

/-- The view takes its new state; entering LOST by R62 sets the recovery count to 0 (R61, R62). -/
def ViewUnit.become (u : ViewUnit) (out : ViewState × Option Word) : ViewUnit :=
  { u with state := out.1, recovery := if out.2.isSome then 0 else u.recovery }

/-- VIEW_LOST, when the view entered LOST by R62 (R65). -/
def State.reportLost (s : State) (v : View) (cause : Option Word) : State :=
  match cause with
  | some w => s.raise (.view v .viewLost) [w]
  | none => s

/-- The latency is measured and LATENCY updated (R68). -/
def State.measureLatency (s : State) (v : View) : State :=
  let latency := latencyOf (s.view v) s.now
  (s.modView v fun u => { u with latency := latency }).level (.view v .latency)
    (match latency with
      | some l => decide ((s.view v).limits.latencyLimit < l.toNat)
      | none => false)
    [reported latency]

/-- The composer's work on one view: reaction, advance, state, latency, region (R59). -/
def State.outputView (s : State) (v : View) : State :=
  let c := (s.unit v.side).composer
  let u := s.view v
  let reaction := effectiveReaction s.faults c.policy v
  let turned := u.turn reaction
  let out := viewOutcome s.mode turned reaction (holdBeyond c.completion s.now u.limits) (u.ring.has .ready)
  let s1 := (s.modView v fun _ => turned.become out).reportLost v out.2
  let s2 := s1.measureLatency v
  s2.modView v fun x => { x with region := some (regionAtStart x) }

/-! ### Responses and the trailer (R188, R189, R192 to R194) -/

/-- The bytes of a response, from LEN to its CRC (R188). -/
def Response.bytes (r : Response) : List Byte :=
  let body := BitVec.ofNat 8 (5 + r.param.length) :: r.tag :: r.kind :: r.status :: r.param
  body ++ bytes2 (crc16 body).toNat

/-- The view block of a trailer (R193). -/
def viewBlock (u : ViewUnit) : List Byte :=
  let shown := u.ring.find .shown
  let rec? := shown.bind (·.record)
  byte1 u.state.code ++ byte1 u.reaction.code ++ byte1 (bitOf shown.isSome) ++
    [(rec?.bind (·.counter)).getD 0] ++ byte1 ((rec?.map fun r => r.curveUsed.code).getD 0) ++
    byte1 ((rec?.map (·.zoneCount)).getD 0) ++ bytes4 (reported u.latency).toNat ++
    bytes2 ((rec?.map (·.toneGeneration)).getD 0)

/-- The table-health byte: bit k for the kind with code k (R193). -/
def healthByte (ts : TableStore) : Nat :=
  (allKinds.map fun k => bitOf (ts.kind k).corrupt * 2 ^ k.code).sum

/-- Whether a soft reset is pending. -/
def Executor.isResetPending : Executor → Bool
  | .resetPending _ => true
  | _ => false

/-- Bytes 0 to 75 of a trailer, without the responses (R193). -/
def trailerHead (s : State) (side : Side) (count : Nat) : List Byte :=
  let u := s.unit side
  bytes2 u.composer.frameNumber.toNat ++ bytes4 s.now.toNat ++
    byte1 (s.mode.code + 2 * bitOf s.executor.isResetPending) ++ byte1 (lightByte u.light) ++
    bytes2 u.light.backlight ++ byte1 (bitOf s.faults.attention) ++ byte1 s.faults.summary ++
    [u.channel.discards] ++ byte1 (healthByte s.tables) ++
    allKinds.flatMap (fun k => bytes2 (s.tables.kind k).generation) ++ viewBlock u.main ++ viewBlock u.wide ++
    bytes4 (reported s.left.ingest.lastPeriod).toNat ++ bytes4 (reported s.right.ingest.lastPeriod).toNat ++
    bytes4 (reported u.ingest.lastActive).toNat ++ bytes4 (reported s.skew).toNat ++
    bytes4 (reported u.composer.period).toNat ++ byte1 u.composer.timing.code ++ byte1 count

/-- A whole trailer up to its CRC (R193, R194). -/
def trailerBytes (s : State) (side : Side) (responses : List Response) : List Byte :=
  let body := trailerHead s side responses.length ++ responses.flatMap Response.bytes
  body ++ bytes2 (crc16 body).toNat

/-- Up to 4 responses leave the queue, and the trailer is captured with them (R189, R192). -/
def State.captureTrailer (s : State) (side : Side) : State :=
  let taken := (s.unit side).channel.responses.take Config.responsesPerTrailer
  let s1 := s.modChannel side fun l => { l with responses := l.responses.drop Config.responsesPerTrailer }
  s1.modComposer side fun c => { c with trailer := trailerBytes s1 side taken, frameNumber := c.frameNumber + 1 }

/-- An output frame start of a display (R59, R69, R111, R189, R192). -/
def State.takeOutputStart (s : State) (side : Side) : State :=
  let s1 := (s.latchLimits side).latchPolicy side
  let (latched, s2) := s1.latchOutputTiming side
  let s3 := (s2.outputView side.mainView).outputView side.wideView
  let s4 := s3.modComposer side fun c => c.outputStart latched s3.clock
  (s4.backlightStart side).captureTrailer side

/-! ### What an output frame shows (R66, R67, R193) -/

/-- A pixel with the same value on all channels. -/
def greyPixel (n : Nat) : Rgb := ⟨BitVec.ofNat 10 n, BitVec.ofNat 10 n, BitVec.ofNat 10 n⟩

/-- Whether a tile coordinate lies in the frame of the camera-unavailable tile. -/
def tileEdge (n : Nat) : Bool := decide (n ≤ 3) || decide (60 ≤ n)

/-- Tile pixel (i, j) of the camera-unavailable tile (R67). -/
def unavailablePixel (i j : Nat) : Rgb :=
  if tileEdge i || tileEdge j || (decide (i ≤ j + 2) && decide (j ≤ i + 2)) ||
      (decide (61 ≤ i + j) && decide (i + j ≤ 65)) then greyPixel 1023
  else greyPixel 0

/-- Tile pixel (i, j) of the warning tile (R67). -/
def warningPixel (i j : Nat) : Rgb :=
  if 28 ≤ i ∧ i ≤ 35 ∧ (8 ≤ j ∧ j ≤ 43 ∨ 50 ≤ j ∧ j ≤ 57) then greyPixel 0 else ⟨1023, 768, 0⟩

/-- The first row of the camera-unavailable tile in a view's region (R67). -/
def unavailableTop (v : View) : Nat := if v.isMain then 224 else 112

/-- Pixel (u, w) of the LOST display of a view (R66, R67). -/
def lostPixel (v : View) (u w : Nat) : Rgb :=
  if 608 ≤ u ∧ u ≤ 671 ∧ unavailableTop v ≤ w ∧ w ≤ unavailableTop v + 63 then
    unavailablePixel (u - 608) (w - unavailableTop v)
  else greyPixel 128

/-- Pixel (u, w) of a region showing a picture, with the warning tile over it when `warn` is set (R66, R67). -/
def picturePixel (p : Picture) (warn : Bool) (u w : Nat) : Rgb :=
  if warn = true ∧ 1216 ≤ u ∧ u ≤ 1279 ∧ w ≤ 63 then warningPixel (u - 1216) w else pixelAt p u w

/-- Pixel (u, w) of a view's region; none while the region read is in progress (R66). -/
def regionPixel (v : View) (r : Region) (u w : Nat) : Option Rgb :=
  match r with
  | .grey => some (greyPixel 512)
  | .lost => some (lostPixel v u w)
  | .reading _ _ => none
  | .shows p warn => some (picturePixel p warn u w)

/-- Pixel i of the trailer lines: byte i in the G channel (R193, R194). -/
def trailerPixel (trailer : List Byte) (i : Nat) : Rgb := ⟨0, (trailer.getD i 0).zeroExtend 10, 0⟩

/-- Pixel (x, y) of a display's current output frame: MAIN rows 0 to 511, WIDE rows 512 to 799, trailer rows 800
and 801; none before the first output frame. -/
def outputPixel (s : State) (side : Side) (x y : Nat) : Option Rgb :=
  let u := s.unit side
  if y < 512 then u.main.region.bind fun r => regionPixel side.mainView r x y
  else if y < 800 then u.wide.region.bind fun r => regionPixel side.wideView r x (y - 512)
  else some (trailerPixel u.composer.trailer (1280 * (y - 800) + x))

/-! ### DDR transfers of the view rings (R54, R55) -/

/-- The detail of DDR_ERROR: a read (R118). -/
def transferRead : Word := 1

/-- The detail of DDR_ERROR: a write (R118). -/
def transferWrite : Word := 2

/-- A write transfer of a view's FILLING buffer fails (R54). -/
def State.writeFails (s : State) (v : View) : State :=
  if (s.view v).ring.has .filling then
    (s.modView v fun u => { u with ring := u.ring.freeFilling }).raise (.view v .ddrError) [transferWrite]
  else s

/-- The region read of a view ends (R55). -/
def State.regionRead (s : State) (v : View) (ok : Bool) : State :=
  match (s.view v).region with
  | some (.reading p warn) =>
    if ok then s.modView v fun u => { u with region := some (.shows p warn) }
    else (s.modView v fun u => { u with region := some .lost }).raise (.view v .ddrError) [transferRead]
  | _ => s

/-! ### The meanings -/

/-- OUTPUT_FRAME_START (R59): taken when its due time is reached (R70). -/
def execOutputFrameStart (t : Time) (side : Side) (s : State) : Answer :=
  let s0 := s.advance t
  .next (if (s0.unit side).composer.nextOut ≤ s0.clock then s0.takeOutputStart side else s0)

/-- REGION_READ_DONE (R55). -/
def execRegionReadDone (t : Time) (v : View) (ok : Bool) (s : State) : Answer := .next ((s.advance t).regionRead v ok)

/-- DDR_WRITE_FAIL (R54). -/
def execDdrWriteFail (t : Time) (v : View) (s : State) : Answer := .next ((s.advance t).writeFails v)

/-- COMPLETION_STAMP_EXPIRY (R60). -/
def execCompletionStampExpiry (t : Time) (side : Side) (s : State) : Answer :=
  let s0 := s.advance t
  .next (s0.modComposer side fun c => { c with completion := expireStamp s0.now c.completion })

end Sys2Proof.Machine
end

