-- ==== Sys2Proof/WellFormed.lean ====
section
/-! DEFINITION. Which steps are well formed: what the links, the DDR memory and the packet format can hand
the part. `exec` is total; a statement that needs well-formedness says so. -/

namespace Sys2Proof

/-- The 23 command codes of chapter 10. -/
def commandCodes : List Byte :=
  [0x01, 0x02, 0x03, 0x04, 0x05, 0x06, 0x10, 0x11, 0x12, 0x13, 0x14, 0x20, 0x21, 0x22, 0x23,
   0x30, 0x31, 0x32, 0x33, 0x40, 0x41, 0x42, 0x43]

/-- The KIND of a telemetry packet (R179). -/
def telemetryKind : Byte := 0x70

/-- A PARAM holds 0..60 bytes (R179). -/
def paramOk (param : List Byte) : Bool := param.length ≤ 60

/-- A line holds 1920 codes (spec 00, The camera frame). -/
def lineOk (codes : List Code) : Bool := codes.length == Config.sensorWidth

/-- The self-test buffer holds one MAIN-view picture, 1280 × 512 (R56). -/
def mainPictureOk (p : Picture) : Bool :=
  p.length == 512 && p.all (fun row => row.length == Config.regionWidth)

/-- The event-only descriptors, which have a pulse timer (R117, R121). -/
def Descriptor.eventOnly : Descriptor → Bool
  | .cam _ k => k == .lineCrc || k == .frameAbort || k == .counterSkip || k == .selftestDone || k == .selftestFail
  | .view _ k => k == .viewLost || k == .ddrError
  | .disp _ k => k == .returnFraming || k == .returnCrc || k == .commandDiscard
  | .core k => k == .tableSec || k == .resetSeen

/-- The check of one step's operands. -/
def wellFormed : Instr → Bool
  | .powerOn | .tableClearEnd _ | .softResetInstant _ | .linkLost _ _ | .linkLock _ _ | .frameStart _ _
  | .frameEnd _ _ | .referencePassEnd _ _ | .silentTimerExpiry _ _ | .frameStartStampExpiry _ _
  | .completionStampExpiry _ _ | .ddrWriteFail _ _ | .regionReadDone _ _ _ | .outputFrameStart _ _
  | .returnLaneByte _ _ _ | .packetTimeout _ _ | .ambientTimerExpiry _ _ | .holdOffExpiry _
  | .selftestStepTimeout _ _ | .storeWriteDone _ _ _ | .syncWordCopy _ _ | .scrubVisit _ _ => true
  | .embeddedLine _ _ _ codes => lineOk codes
  | .activeLine _ _ index _ codes => lineOk codes && index != 0
  | .pulseExpiry _ d => d.eventOnly
  | .storeReadDone _ _ data =>
    match data with
    | none => true
    | some p => mainPictureOk p
  | .echo _ _ _ p | .getStatus _ _ _ p | .enterRun _ _ _ p | .enterConfig _ _ _ p | .softReset _ _ _ p
  | .setChannel _ _ _ p | .loadTable _ _ _ p | .commitTable _ _ _ p | .readTable _ _ _ p
  | .tableStatus _ _ _ p | .lockTable _ _ _ p | .setPan _ _ _ p | .forceLight _ _ _ p | .getGlare _ _ _ p
  | .getTiming _ _ _ p | .getEvents _ _ _ p | .clearEvents _ _ _ p | .setEventEnable _ _ _ p
  | .readLog _ _ _ p | .startSelftest _ _ _ p | .abortSelftest _ _ _ p | .getSelftest _ _ _ p
  | .clearSelftest _ _ _ p => paramOk p
  | .badKindCommand _ _ _ kind p => paramOk p && !commandCodes.contains kind && kind != telemetryKind

end Sys2Proof
end

