-- ==== Sys2Proof/Machine/Channel.lean ====
section
/-! DEFINITION. The command channel (chapter 9): the receivers, command acceptance, and the executor. -/

namespace Sys2Proof.Machine

/-! ### Command acceptance (R185) -/

/-- Whether a link accepts a command: both limits of R185. -/
def Link.accepts (l : Link) : Bool :=
  decide (l.queue.length < Config.queueLimit) && decide (l.queue.length + l.responses.length < Config.linkLimit)

/-- A command that passed the packet check is accepted at the tail of its link's queue, or discarded (R185). -/
def State.acceptCommand (s : State) (link : Side) (c : Command) : State :=
  if (s.unit link).channel.accepts then s.modChannel link fun l => { l with queue := l.queue ++ [c] }
  else (s.modChannel link fun l => { l with discards := l.discards + 1 }).raise (.disp link .commandDiscard) []

/-! ### The receivers (R180 to R184) -/

/-- The detail of RETURN_FRAMING: LEN (R118). -/
def framingLen : Word := 1

/-- The detail of RETURN_FRAMING: TIMEOUT (R118). -/
def framingTimeout : Word := 2

/-- The receiver of a link takes a state. -/
def State.setReceiver (s : State) (link : Side) (r : Receiver) : State :=
  s.modChannel link fun l => { l with receiver := r }

/-- RETURN_FRAMING of a link. -/
def State.framingError (s : State) (link : Side) (reason : Word) : State :=
  s.raise (.disp link .returnFraming) [reason]

/-- A byte taken as a LEN (R180). -/
def State.takeLen (s : State) (link : Side) (b : Byte) : State :=
  if 4 ≤ b.toNat ∧ b.toNat ≤ 64 then
    let ms := (s.unit link).channel.timeoutMs
    s.setReceiver link (.collecting b.toNat [] (if ms = 0 then none else some (s.clock + ms * 1000)))
  else s.framingError link framingLen

/-- A packet whose CRC agrees is telemetry or a command (R183, R184). -/
def State.routePacket (s : State) (link : Side) (c : Command) : State :=
  if c.kind = telemetryKind then
    match c.param with
    | [lo, hi, status] => s.telemetry link (numberOf [lo, hi]) status
    | _ => s.framingError link framingLen
  else s.acceptCommand link c

/-- Whether the CRC field of a packet agrees; `packet` begins with LEN (R183). -/
def packetOk (len : Nat) (packet : List Byte) : Bool :=
  numberOf (packet.drop (len - 1)) == (crc16 (packet.take (len - 1))).toNat

/-- The fields of a complete packet, from the bytes after LEN (R179). -/
def packetFields (len : Nat) (buffer : List Byte) : Command where
  tag := buffer.getD 0 0
  kind := buffer.getD 1 0
  param := (buffer.drop 2).take (len - 4)

/-- The packet check (R183). -/
def State.checkPacket (s : State) (link : Side) (len : Nat) (buffer : List Byte) : State :=
  if packetOk len (BitVec.ofNat 8 len :: buffer) then s.routePacket link (packetFields len buffer)
  else s.raise (.disp link .returnCrc) []

/-- A byte added to the packet being collected (R181). -/
def State.collect (s : State) (link : Side) (len : Nat) (buffer : List Byte) (due : Option Nat) (b : Byte) : State :=
  if (buffer ++ [b]).length < len then s.setReceiver link (.collecting len (buffer ++ [b]) due)
  else (s.setReceiver link .waitLen).checkPacket link len (buffer ++ [b])

/-- A byte arrives at the receiver of a link (R180, R181). -/
def State.takeByte (s : State) (link : Side) (b : Byte) : State :=
  match (s.unit link).channel.receiver with
  | .waitLen => s.takeLen link b
  | .collecting len buffer due => s.collect link len buffer due b

/-- The packet timer of a link runs out (R182). -/
def State.packetTimedOut (s : State) (link : Side) : State :=
  match (s.unit link).channel.receiver with
  | .waitLen => s
  | .collecting _ _ due =>
    if timeUp due s.clock then (s.setReceiver link .waitLen).framingError link framingTimeout else s

/-- RETURN_LANE_BYTE (R180): no byte is taken during the clearing of the table RAM (R176). -/
def execReturnLaneByte (t : Time) (link : Side) (b : Byte) (s : State) : Answer :=
  let s0 := s.advance t
  .next (if s0.clearing then s0 else s0.takeByte link b)

/-- PACKET_TIMEOUT (R182). -/
def execPacketTimeout (t : Time) (link : Side) (s : State) : Answer := .next ((s.advance t).packetTimedOut link)

/-! ### The executor (R186, R187) -/

/-- The status codes of responses (R188). -/
inductive Status where
  | ok
  | truncated
  | clamped
  | busy
  | locked
  | wrongMode
  | blocked
  | missing
  | badKind
  | badParam
  | crcMismatch
  | invalid
  | memoryError
deriving DecidableEq, Repr

/-- The code of a status (R188). -/
def Status.code : Status → Byte
  | .ok => 0x00
  | .truncated => 0x01
  | .clamped => 0x02
  | .busy => 0x10
  | .locked => 0x11
  | .wrongMode => 0x12
  | .blocked => 0x13
  | .missing => 0x14
  | .badKind => 0x20
  | .badParam => 0x21
  | .crcMismatch => 0x22
  | .invalid => 0x23
  | .memoryError => 0x24

/-- What a command answers: its status and its response PARAM. -/
structure Reply where
  status : Status
  param : List Byte
deriving DecidableEq, Repr

/-- A refusal with an empty PARAM. -/
def refuse (st : Status) : Reply := ⟨st, []⟩

/-- The command that the executor takes next, with its link: the head of the one queue that holds commands, or
that of the link not last served when both do (R186). -/
def State.selected (s : State) : Option (Side × Command) :=
  match s.left.channel.queue, s.right.channel.queue with
  | [], [] => none
  | c :: _, [] => some (.left, c)
  | [], d :: _ => some (.right, d)
  | c :: _, d :: _ => if s.lastServed = .right then some (.left, c) else some (.right, d)

/-- A command row whose link's queue is empty brings its command with it: the packet has just arrived whole
(log 3). -/
def State.deliver (s : State) (link : Side) (c : Command) : State :=
  if (s.unit link).channel.queue = [] ∧ s.clearing = false ∧ paramOk c.param = true then s.acceptCommand link c else s

/-- Whether the executor takes this command of this link now (R186). -/
def State.takes (s : State) (link : Side) (c : Command) : Bool :=
  decide (s.executor = .idle) && decide (s.selected = some (link, c))

/-- The executor takes the command from the head of its link's queue (R186). -/
def State.takeCommand (s : State) (link : Side) : State :=
  { s.modChannel link fun l => { l with queue := l.queue.drop 1 } with executor := .executing, lastServed := link }

/-- The response joins the queue of the link the command came from, and the executor becomes IDLE, or stays
RESET_PENDING when the command made it so (R187, R190). -/
def State.respond (s : State) (link : Side) (c : Command) (r : Reply) : State :=
  { s.modChannel link fun l =>
      { l with responses := l.responses ++ [⟨c.tag, c.kind + 0x80, r.status.code, r.param⟩] } with
    executor := if s.executor.isResetPending then s.executor else .idle }

/-- One command row: the executor takes the command of the link, carries it out by `body`, and answers
(R186, R187). When it does not take this command now, nothing is carried out. -/
def State.runCommand (s : State) (link : Side) (c : Command) (body : State → Reply × State) : State :=
  let s0 := s.deliver link c
  if s0.takes link c then
    let (r, s1) := body (s0.takeCommand link)
    s1.respond link c r
  else s0

/-- The meaning of a command row. -/
def State.command (s : State) (t : Time) (link : Side) (kind tag : Byte) (param : List Byte)
    (body : State → Reply × State) : Answer :=
  .next ((s.advance t).runCommand link ⟨tag, kind, param⟩ body)

end Sys2Proof.Machine
end

