-- ==== Sys2Proof/Machine/Operands.lean ====
section
/-! DEFINITION. The PARAM fields of commands (R195, R211) and the bytes of responses that several commands
share. -/

namespace Sys2Proof.Machine

/-! ### Fields of a PARAM (R195) -/

/-- A side, none for a code above 1. -/
def sideOf (b : Byte) : Option Side :=
  match b.toNat with
  | 0 => some .left
  | 1 => some .right
  | _ => none

/-- A view, none for an index above 3. -/
def viewOf (b : Byte) : Option View := allViews[b.toNat]?

/-- A table kind, none for a code above 7. -/
def kindOf (b : Byte) : Option Kind := kindOfCode b.toNat

/-- A force setting, none for a code above 2 (R208). -/
def forceOf (b : Byte) : Option Force :=
  match b.toNat with
  | 0 => some .auto
  | 1 => some .day
  | 2 => some .night
  | _ => none

/-- The bank of a READ_TABLE, LIVE (false) or SHADOW (true), none for a code above 1 (R204). -/
def shadowOf (b : Byte) : Option Bool :=
  match b.toNat with
  | 0 => some false
  | 1 => some true
  | _ => none

/-- A set of descriptors, none when a bit of 51..55 is set (R211). -/
def mapOf (bs : List Byte) : Option (BitVec 51) :=
  if numberOf bs < 2 ^ 51 then some (BitVec.ofNat 51 (numberOf bs)) else none

/-- A selection of self-test steps, none when a bit of 5..7 is set or none is selected (R216). -/
def selectionOf (b : Byte) : Option (PerStep Bool) :=
  if b.toNat = 0 ∨ 32 ≤ b.toNat then none else some (stepsOfBits b.toNat)

/-- A command whose only field is a side (R195). -/
def withSide (param : List Byte) (s : State) (f : Side → Reply × State) : Reply × State :=
  match param with
  | [b] =>
    match sideOf b with
    | some side => f side
    | none => (refuse .badParam, s)
  | _ => (refuse .badParam, s)

/-- A command with an empty PARAM (R195). -/
def withNone (param : List Byte) (s : State) (f : Reply × State) : Reply × State :=
  match param with
  | [] => f
  | _ => (refuse .badParam, s)

/-! ### Bytes of responses -/

/-- The run state of a sequencer: 0 IDLE, 1 to 5 RUNNING in a step (R197). -/
def runCode (q : Sequencer) : Nat :=
  match q.run with
  | none => 0
  | some r =>
    match r.step with
    | .link => 1
    | .ident => 2
    | .pattern => 3
    | .develop => 4
    | .store => 5

/-- The code of a qualification phase (R197). -/
def Phase.code : Phase → Nat
  | .idle => 0
  | .debouncing _ => 1
  | .validating _ => 2

/-- The code of a track state (R209). -/
def TrackState.code : TrackState → Nat
  | .free => 0
  | .tentative => 1
  | .confirmed => 2
  | .coasting => 3
  | .releasing => 4

/-- A track as it is reported: a FREE slot reports attenuation 256 and every other field 0 (R83, R209). -/
def Track.shown (t : Track) : Track := if t.state = .free then Track.freed else t

/-- The 16 bytes of a slot (R209). -/
def slotBytes (track : Track) : List Byte :=
  let t := track.shown
  byte1 t.state.code ++ [t.id] ++ byte1 t.qx ++ byte1 t.qy ++ [BitVec.ofInt 8 t.vx, BitVec.ofInt 8 t.vy] ++
    byte1 t.box.x0 ++ byte1 t.box.x1 ++ byte1 t.box.y0 ++ byte1 t.box.y1 ++ [t.history] ++ byte1 t.misses ++
    bytes2 t.attenuation ++ bytes2 t.target

/-- The glare status of a side (R99, R209). -/
def glareBytes (s : State) (side : Side) : List Byte :=
  let g := (s.unit side).glare
  byte1 g.candidates.length ++ byte1 g.droppedComponents ++ byte1 g.droppedCandidates ++ bytes2 g.hotTotal ++
    byte1 (bitOf (inSet s.faults.conditions (.cam side .glareOverload)) + 2 * bitOf g.running) ++
    g.tracks.toList.flatMap slotBytes

/-- The device summary (R197). -/
def statusBytes (s : State) : List Byte :=
  byte1 s.mode.code ++
    allViews.flatMap (fun v => byte1 (s.view v).state.code ++ bytes2 (s.view v).ring.superseded) ++
    byte1 (bitOf (decide (s.left.ingest.link = .locked)) + 2 * bitOf (decide (s.right.ingest.link = .locked))) ++
    byte1 (lightByte s.left.light + 64 * s.left.light.phase.code) ++
    byte1 (lightByte s.right.light + 64 * s.right.light.phase.code) ++
    byte1 (runCode s.left.sequencer) ++ byte1 (runCode s.right.sequencer)

/-- A timing value of four bytes, absent as 0xFFFFFFFF (R25). -/
def timingBytes (v : Option Word) : List Byte := bytes4 (reported v).toNat

/-- The timing snapshot (R25, R210). -/
def snapshotBytes (s : State) : List Byte :=
  timingBytes s.left.ingest.lastPeriod ++ timingBytes s.right.ingest.lastPeriod ++
    timingBytes s.left.ingest.lastActive ++ timingBytes s.right.ingest.lastActive ++ timingBytes s.skew ++
    timingBytes s.left.composer.period ++ timingBytes s.right.composer.period ++
    byte1 s.left.composer.timing.code ++ byte1 s.right.composer.timing.code

/-- The reply of GET_EVENTS (R212). -/
def eventBytes (s : State) : List Byte :=
  mapBytes s.faults.flags ++ mapBytes s.faults.enables ++ mapBytes s.faults.activeSet ++ byte1 s.faults.summary ++
    byte1 (bitOf s.faults.holdOff.isSome) ++ bytes2 (s.faults.holdOffLeft s.clock)

/-- The bytes of a fault record (R215). -/
def FaultRecord.bytes (r : FaultRecord) : List Byte :=
  bytes2 r.sequence.toNat ++ bytes4 r.time.toNat ++ byte1 r.descriptor.source ++ byte1 r.descriptor.kind ++
    byte1 (r.descriptor.viewIndex.getD 0xFF) ++ byte1 r.lost ++ byte1 r.detail.length ++
    r.detail.flatMap fun w => bytes4 w.toNat

/-- The word offset held for a kind in the corruption list, 0 when there is none (R205). -/
def corruptOffset (ts : TableStore) (k : Kind) : Nat := ((ts.corruptions.find? fun e => e.1 == k).map (·.2)).getD 0

/-- The four bytes of a kind record (R205). -/
def recordBytes (ts : TableStore) (k : Kind) : List Byte :=
  let r := ts.kind k
  bytes2 r.generation ++
    byte1 (bitOf (decide (r.live = .bankB)) + 2 * bitOf r.sync.isSome + 4 * bitOf r.corrupt + 8 * bitOf r.locked) ++
    byte1 (corruptOffset ts k)

/-- The report of a sequencer (R218). -/
def selftestBytes (q : Sequencer) : List Byte :=
  (match q.run with
    | none => [0, 0, 0, 0, 0]
    | some r =>
      byte1 (runCode q) ++ byte1 r.selection.stepBits ++ byte1 (r.outcomes.map (·.isSome)).stepBits ++
        bytes2 (outcomeBits (r.outcomes.map fun o => o.getD .pass))) ++
    byte1 q.failFlags.stepBits ++ bytes2 (outcomeBits q.last)

end Sys2Proof.Machine
end

