-- ==== Sys2Proof/Machine/CommandsDevice.lean ====
section
/-! DEFINITION. Device and channel commands (10.2), and the refusal of a KIND that is no command code. -/

namespace Sys2Proof.Machine

/-! ### ECHO (R196) -/

/-- ECHO returns its PARAM. -/
def echoBody (param : List Byte) (s : State) : Reply × State :=
  if 1 ≤ param.length ∧ param.length ≤ 60 then (⟨.ok, param⟩, s) else (refuse .badParam, s)

/-! ### GET_STATUS (R197) -/

/-- The superseded count of every view becomes 0 (R51, R197). -/
def State.clearSuperseded (s : State) : State :=
  let clear := fun u : ViewUnit => { u with ring := { u.ring with superseded := 0 } }
  (s.modViews .left clear).modViews .right clear

/-- GET_STATUS reads the device summary. -/
def getStatusBody (param : List Byte) (s : State) : Reply × State :=
  withNone param s (⟨.ok, statusBytes s⟩, s.clearSuperseded)

/-! ### ENTER_RUN (R198) -/

/-- The kinds that ENTER_RUN needs (R198). -/
def neededKinds : List Kind := [.cameraL, .cameraR, .view, .tone, .timing]

/-- The bits of the needed kinds that are not usable (R198). -/
def missingBits (ts : TableStore) : Nat :=
  ((neededKinds.filter fun k => !ts.usable k).map fun k => 2 ^ k.code).sum

/-- A view at ENTER_RUN: LOST with recovery count 0 (R64). -/
def ViewUnit.startLost (u : ViewUnit) : ViewUnit := { u with state := .lost, recovery := 0 }

/-- The device mode becomes RUN, and every view LOST (R198). -/
def State.goRun (s : State) : State :=
  (({ s with mode := .run } : State).modViews .left ViewUnit.startLost).modViews .right ViewUnit.startLost

/-- ENTER_RUN starts the development of pictures. -/
def enterRunBody (param : List Byte) (s : State) : Reply × State :=
  withNone param s
    (if s.mode = .run then (refuse .wrongMode, s)
    else if missingBits s.tables ≠ 0 then (⟨.missing, byte1 (missingBits s.tables)⟩, s)
    else (⟨.ok, []⟩, s.goRun))

/-! ### ENTER_CONFIG (R199) -/

/-- The effect of ENTER_CONFIG on one side (R12, R27, R52, R97, R110, R153). -/
def State.stopSide (s : State) (side : Side) : State :=
  let s1 := s.modIngest side fun i => { i with frame := i.frame.map fun f => { f with developed := false } }
  let s2 := ((s1.setPass side (match (s1.unit side).pass with
      | .camera _ => .idle
      | p => p)).modRings side Ring.freeAll).clearTracker side
  (s2.modLight side fun l => { l with phase := .idle }).endRun side

/-- The device mode becomes CONFIG (R199). DESIGN CHOICE (log 8): side L is stopped, and its run ended with its
reports, before side R; R122 and R153 leave the order of the two sides' reports open. -/
def State.goConfig (s : State) : State := (({ s with mode := .config } : State).stopSide .left).stopSide .right

/-- ENTER_CONFIG stops the development of pictures. -/
def enterConfigBody (param : List Byte) (s : State) : Reply × State :=
  withNone param s (if s.mode = .config then (refuse .wrongMode, s) else (⟨.ok, []⟩, s.goConfig))

/-! ### SOFT_RESET and SET_CHANNEL (R200, R201) -/

/-- SOFT_RESET makes the executor RESET_PENDING; the reset itself is SOFT_RESET_INSTANT (R190). -/
def softResetBody (link : Side) (param : List Byte) (s : State) : Reply × State :=
  withNone param s (⟨.ok, []⟩, { s with executor := .resetPending link })

/-- SET_CHANNEL sets the packet timeout of the link that carried it. -/
def setChannelBody (link : Side) (param : List Byte) (s : State) : Reply × State :=
  match param with
  | [b] => (⟨.ok, [b]⟩, s.modChannel link fun l => { l with timeoutMs := b.toNat })
  | _ => (refuse .badParam, s)

/-! ### The meanings -/

/-- ECHO (R196). -/
def execEcho (t : Time) (link : Side) (tag : Byte) (param : List Byte) (s : State) : Answer :=
  s.command t link 0x01 tag param (echoBody param)

/-- GET_STATUS (R197). -/
def execGetStatus (t : Time) (link : Side) (tag : Byte) (param : List Byte) (s : State) : Answer :=
  s.command t link 0x02 tag param (getStatusBody param)

/-- ENTER_RUN (R198). -/
def execEnterRun (t : Time) (link : Side) (tag : Byte) (param : List Byte) (s : State) : Answer :=
  s.command t link 0x03 tag param (enterRunBody param)

/-- ENTER_CONFIG (R199). -/
def execEnterConfig (t : Time) (link : Side) (tag : Byte) (param : List Byte) (s : State) : Answer :=
  s.command t link 0x04 tag param (enterConfigBody param)

/-- SOFT_RESET (R200). -/
def execSoftReset (t : Time) (link : Side) (tag : Byte) (param : List Byte) (s : State) : Answer :=
  s.command t link 0x05 tag param (softResetBody link param)

/-- SET_CHANNEL (R201). -/
def execSetChannel (t : Time) (link : Side) (tag : Byte) (param : List Byte) (s : State) : Answer :=
  s.command t link 0x06 tag param (setChannelBody link param)

/-- BAD_KIND_COMMAND (R187): a KIND that is no command code, and not that of telemetry, is refused. -/
def execBadKindCommand (t : Time) (link : Side) (tag kind : Byte) (param : List Byte) (s : State) : Answer :=
  if commandCodes.contains kind || kind == telemetryKind then .next (s.advance t)
  else s.command t link kind tag param fun s1 => (refuse .badKind, s1)

end Sys2Proof.Machine
end

