-- ==== Sys2Proof/Machine/CommandsFaults.lean ====
section
/-! DEFINITION. Fault commands (10.5): GET_EVENTS, CLEAR_EVENTS, SET_EVENT_ENABLE and READ_LOG; and the timers
of the fault manager. -/

namespace Sys2Proof.Machine

/-! ### GET_EVENTS (R128, R212) -/

/-- GET_EVENTS reads flags, enables and the active set. -/
def getEventsBody (param : List Byte) (s : State) : Reply × State := withNone param s (⟨.ok, eventBytes s⟩, s)

/-! ### CLEAR_EVENTS (R126, R129, R213) -/

/-- The listed flags are cleared and the hold-off timer started with the hold-off time latched from POLICY.
DESIGN CHOICE (log 8): the latch comes first, so a listed TABLE_SEC or TABLE_DED flag that this latch itself sets
is cleared; R126, R127 and R129 leave that order open. -/
def State.clearEvents (s : State) (m : BitVec 51) : State :=
  let (read, s1) := s.latch .policy [0]
  let ms := (read.map fun ws => bits (wordAt ws 0) 0 10).getD Config.fallbackHoldOffMs
  { s1 with faults := (s1.faults.clear m).startHoldOff s1.clock ms }

/-- CLEAR_EVENTS clears flags. -/
def clearEventsBody (param : List Byte) (s : State) : Reply × State :=
  if param.length ≠ 7 then (refuse .badParam, s)
  else
    match mapOf param with
    | none => (refuse .badParam, s)
    | some m => if m = 0 then (refuse .badParam, s) else (⟨.ok, []⟩, s.clearEvents m)

/-! ### SET_EVENT_ENABLE (R124, R214) -/

/-- Whether a SET_EVENT_ENABLE would clear the enable of RESET_SEEN (R124). -/
def clearsResetSeen (select value : BitVec 51) : Bool :=
  inSet select (.core .resetSeen) && !inSet value (.core .resetSeen)

/-- The selected enables take their values. -/
def acceptedEnable (select value : BitVec 51) (s : State) : Reply × State :=
  let fm := s.faults.setEnables select value
  (⟨.ok, mapBytes fm.enables⟩, { s with faults := fm })

/-- SET_EVENT_ENABLE sets or clears enables. -/
def setEventEnableBody (param : List Byte) (s : State) : Reply × State :=
  if param.length ≠ 14 then (refuse .badParam, s)
  else
    match mapOf (param.take 7), mapOf (param.drop 7) with
    | some select, some value =>
      if select = 0 ∨ clearsResetSeen select value = true then (refuse .badParam, s)
      else acceptedEnable select value s
    | _, _ => (refuse .badParam, s)

/-! ### READ_LOG (R137, R215) -/

/-- READ_LOG takes records from the fault log. -/
def readLogBody (param : List Byte) (s : State) : Reply × State :=
  match param with
  | [nb] =>
    if nb.toNat < 1 ∨ 4 < nb.toNat then (refuse .badParam, s)
    else
      let taken := s.faults.log.take nb.toNat
      (⟨.ok, byte1 taken.length ++ byte1 s.faults.lost ++ taken.flatMap FaultRecord.bytes⟩,
        { s with faults := s.faults.removeRecords nb.toNat })
  | _ => (refuse .badParam, s)

/-! ### The meanings -/

/-- GET_EVENTS (R212). -/
def execGetEvents (t : Time) (link : Side) (tag : Byte) (param : List Byte) (s : State) : Answer :=
  s.command t link 0x30 tag param (getEventsBody param)

/-- CLEAR_EVENTS (R213). -/
def execClearEvents (t : Time) (link : Side) (tag : Byte) (param : List Byte) (s : State) : Answer :=
  s.command t link 0x31 tag param (clearEventsBody param)

/-- SET_EVENT_ENABLE (R214). -/
def execSetEventEnable (t : Time) (link : Side) (tag : Byte) (param : List Byte) (s : State) : Answer :=
  s.command t link 0x32 tag param (setEventEnableBody param)

/-- READ_LOG (R215). -/
def execReadLog (t : Time) (link : Side) (tag : Byte) (param : List Byte) (s : State) : Answer :=
  s.command t link 0x33 tag param (readLogBody param)

/-- PULSE_EXPIRY (R121). -/
def execPulseExpiry (t : Time) (d : Descriptor) (s : State) : Answer :=
  let s0 := s.advance t
  .next { s0 with faults := s0.faults.endPulse s0.clock d }

/-- HOLD_OFF_EXPIRY (R129): the hold-off timer runs out and stops. -/
def execHoldOffExpiry (t : Time) (s : State) : Answer :=
  let s0 := s.advance t
  .next (if timeUp s0.faults.holdOff s0.clock then { s0 with faults := { s0.faults with holdOff := none } } else s0)

end Sys2Proof.Machine
end

