-- ==== Sys2Proof/Machine/CommandsSelftest.lean ====
section
/-! DEFINITION. Self-test commands (10.6), and the sequencer's own events: the step timer and the ends of the
self-test buffer's transfers. -/

namespace Sys2Proof.Machine

/-! ### START_SELFTEST (R142, R216) -/

/-- START_SELFTEST with good parameters: the refusals of R142 in the order of R216, or a run. -/
def startChecked (side : Side) (selection : PerStep Bool) (s : State) : Reply × State :=
  let q := (s.unit side).sequencer
  if s.mode = .config then (refuse .wrongMode, s)
  else if q.run.isSome then (refuse .busy, s)
  else if q.failFlags.stepBits ≠ 0 then (refuse .blocked, s)
  else (⟨.ok, []⟩, s.startRun side selection)

/-- START_SELFTEST begins a run. -/
def startSelftestBody (param : List Byte) (s : State) : Reply × State :=
  match param with
  | [sb, eb] =>
    match sideOf sb, selectionOf eb with
    | some side, some selection => startChecked side selection s
    | _, _ => (refuse .badParam, s)
  | _ => (refuse .badParam, s)

/-! ### ABORT_SELFTEST, GET_SELFTEST and CLEAR_SELFTEST (R217 to R219) -/

/-- ABORT_SELFTEST ends a run now (R153). -/
def abortSelftestBody (param : List Byte) (s : State) : Reply × State :=
  withSide param s fun side => (⟨.ok, byte1 (bitOf (s.unit side).sequencer.run.isSome)⟩, s.endRun side)

/-- GET_SELFTEST reads a sequencer (R155). -/
def getSelftestBody (param : List Byte) (s : State) : Reply × State :=
  withSide param s fun side => (⟨.ok, selftestBytes (s.unit side).sequencer⟩, s)

/-- CLEAR_SELFTEST clears the fail flags (R150). -/
def clearSelftestBody (param : List Byte) (s : State) : Reply × State :=
  withSide param s fun side =>
    (⟨.ok, []⟩, s.modSequencer side fun q => { q with failFlags := ⟨false, false, false, false, false⟩ })

/-! ### The meanings -/

/-- START_SELFTEST (R216). -/
def execStartSelftest (t : Time) (link : Side) (tag : Byte) (param : List Byte) (s : State) : Answer :=
  s.command t link 0x40 tag param (startSelftestBody param)

/-- ABORT_SELFTEST (R217). -/
def execAbortSelftest (t : Time) (link : Side) (tag : Byte) (param : List Byte) (s : State) : Answer :=
  s.command t link 0x41 tag param (abortSelftestBody param)

/-- GET_SELFTEST (R218). -/
def execGetSelftest (t : Time) (link : Side) (tag : Byte) (param : List Byte) (s : State) : Answer :=
  s.command t link 0x42 tag param (getSelftestBody param)

/-- CLEAR_SELFTEST (R219). -/
def execClearSelftest (t : Time) (link : Side) (tag : Byte) (param : List Byte) (s : State) : Answer :=
  s.command t link 0x43 tag param (clearSelftestBody param)

/-- Whether the step timer of a side has run out. -/
def Sequencer.timeUp (q : Sequencer) (clock : Nat) : Bool :=
  match q.run with
  | some r => Machine.timeUp r.timerDue clock
  | none => false

/-- SELFTEST_STEP_TIMEOUT (R148): the step timer runs out, and the step fails. -/
def execSelftestStepTimeout (t : Time) (side : Side) (s : State) : Answer :=
  let s0 := s.advance t
  .next (if (s0.unit side).sequencer.timeUp s0.clock then s0.stepTimeout side else s0)

/-- STORE_WRITE_DONE (R149). -/
def execStoreWriteDone (t : Time) (side : Side) (ok : Bool) (s : State) : Answer :=
  .next ((s.advance t).writeDone side ok)

/-- STORE_READ_DONE (R149). -/
def execStoreReadDone (t : Time) (side : Side) (data : Option Picture) (s : State) : Answer :=
  .next ((s.advance t).readDone side data)

end Sys2Proof.Machine
end

