-- ==== Sys2Proof/Machine/CommandsTables.lean ====
section
/-! DEFINITION. Table commands (10.3): LOAD_TABLE, COMMIT_TABLE, READ_TABLE, TABLE_STATUS and LOCK_TABLE. -/

namespace Sys2Proof.Machine

/-! ### LOAD_TABLE (R162, R202) -/

/-- An accepted LOAD: the words that fit are written into the shadow bank. -/
def acceptedLoad (k : Kind) (off : Nat) (data : List Byte) (s : State) : Reply × State :=
  let ws := wordsOfBytes data
  let fit := ws.take (k.size - off)
  let st : Status := if data.length % 4 = 0 ∧ ws.length ≤ k.size - off then .ok else .truncated
  (⟨st, byte1 fit.length⟩, { s with tables := s.tables.load k off fit })

/-- LOAD_TABLE writes words into the shadow bank. -/
def loadTableBody (param : List Byte) (s : State) : Reply × State :=
  match param with
  | kb :: ob :: data =>
    match kindOf kb with
    | none => (refuse .badParam, s)
    | some k =>
      if data.length < 4 ∨ 58 < data.length ∨ k.size ≤ ob.toNat then (refuse .badParam, s)
      else if (s.tables.kind k).locked then (refuse .locked, s)
      else if (s.tables.kind k).sync.isSome then (refuse .busy, s)
      else acceptedLoad k ob.toNat data s
  | _ => (refuse .badParam, s)

/-! ### COMMIT_TABLE (R164 to R167, R203) -/

/-- The current origin of a view becomes the default of a VIEW bank (R57). -/
def ViewUnit.resetOrigin (u : ViewUnit) (ws : List (Nat × Word)) (v : View) : ViewUnit :=
  { u with originX := (defaultOrigin ws v).1, originY := (defaultOrigin ws v).2 }

/-- The current origins of all four views become the defaults of a VIEW bank (R57). -/
def State.resetOrigins (s : State) (ws : List (Nat × Word)) : State :=
  allViews.foldl (fun s1 v => s1.modView v fun u => u.resetOrigin ws v) s

/-- A commit that passed all three checks succeeds (R167). -/
def commitSucceeds (k : Kind) (ws : List (Nat × Word)) (s : State) : Reply × State :=
  let s1 := s.switchBanks k
  (⟨.ok, bytes2 (s1.tables.kind k).generation⟩, if k = .view then s1.resetOrigins ws else s1)

/-- The checks of a commit, in order: every word readable, the CRC, the contents (R164 to R166). -/
def acceptedCommit (k : Kind) (crc : Nat) (s : State) : Reply × State :=
  match s.readWords k (s.tables.kind k).live.other (List.range k.size) with
  | (.doubleError off, s1) => (⟨.memoryError, byte1 off⟩, s1)
  | (.words ws, s1) =>
    if (crc16 (bankBytes ws)).toNat ≠ crc then (⟨.crcMismatch, bytes2 (crc16 (bankBytes ws)).toNat⟩, s1)
    else
      match firstInvalid k ws with
      | some off => (⟨.invalid, byte1 off⟩, s1)
      | none => commitSucceeds k ws s1

/-- COMMIT_TABLE proves the shadow bank and makes it live. -/
def commitTableBody (param : List Byte) (s : State) : Reply × State :=
  match param with
  | [kb, c0, c1] =>
    match kindOf kb with
    | none => (refuse .badParam, s)
    | some k =>
      if (s.tables.kind k).locked then (refuse .locked, s)
      else if (s.tables.kind k).sync.isSome then (refuse .busy, s)
      else acceptedCommit k (numberOf [c0, c1]) s
  | _ => (refuse .badParam, s)

/-! ### READ_TABLE (R170, R204) -/

/-- The bank that a READ_TABLE names. -/
def namedBank (ts : TableStore) (k : Kind) (shadow : Bool) : Bank :=
  if shadow then (ts.kind k).live.other else (ts.kind k).live

/-- An accepted read: the words up to the end of the bank. -/
def acceptedRead (k : Kind) (shadow : Bool) (off count : Nat) (s : State) : Reply × State :=
  match s.readWords k (namedBank s.tables k shadow) (List.range' off (min count (k.size - off))) with
  | (.doubleError e, s1) => (⟨.memoryError, byte1 e⟩, s1)
  | (.words ws, s1) =>
    (⟨if off + count ≤ k.size then .ok else .truncated, byte1 ws.length ++ bankBytes ws⟩, s1)

/-- READ_TABLE reads words of a bank. -/
def readTableBody (param : List Byte) (s : State) : Reply × State :=
  match param with
  | [kb, bb, ob, nb] =>
    match kindOf kb, shadowOf bb with
    | some k, some shadow =>
      if nb.toNat < 1 ∨ 14 < nb.toNat ∨ k.size ≤ ob.toNat then (refuse .badParam, s)
      else if shadow = true ∧ (s.tables.kind k).sync.isSome = true then (refuse .busy, s)
      else acceptedRead k shadow ob.toNat nb.toNat s
    | _, _ => (refuse .badParam, s)
  | _ => (refuse .badParam, s)

/-! ### TABLE_STATUS and LOCK_TABLE (R205, R206) -/

/-- TABLE_STATUS reads the kind records. -/
def tableStatusBody (param : List Byte) (s : State) : Reply × State :=
  withNone param s (⟨.ok, allKinds.flatMap (recordBytes s.tables)⟩, s)

/-- LOCK_TABLE freezes a kind until power-on (R171). -/
def lockTableBody (param : List Byte) (s : State) : Reply × State :=
  match param with
  | [kb] =>
    match kindOf kb with
    | none => (refuse .badParam, s)
    | some k => (⟨.ok, []⟩, { s with tables := s.tables.lock k })
  | _ => (refuse .badParam, s)

/-! ### The meanings -/

/-- LOAD_TABLE (R202). -/
def execLoadTable (t : Time) (link : Side) (tag : Byte) (param : List Byte) (s : State) : Answer :=
  s.command t link 0x10 tag param (loadTableBody param)

/-- COMMIT_TABLE (R203). -/
def execCommitTable (t : Time) (link : Side) (tag : Byte) (param : List Byte) (s : State) : Answer :=
  s.command t link 0x11 tag param (commitTableBody param)

/-- READ_TABLE (R204). -/
def execReadTable (t : Time) (link : Side) (tag : Byte) (param : List Byte) (s : State) : Answer :=
  s.command t link 0x12 tag param (readTableBody param)

/-- TABLE_STATUS (R205). -/
def execTableStatus (t : Time) (link : Side) (tag : Byte) (param : List Byte) (s : State) : Answer :=
  s.command t link 0x13 tag param (tableStatusBody param)

/-- LOCK_TABLE (R206). -/
def execLockTable (t : Time) (link : Side) (tag : Byte) (param : List Byte) (s : State) : Answer :=
  s.command t link 0x14 tag param (lockTableBody param)

end Sys2Proof.Machine
end

