-- ==== Sys2Proof/Machine/CommandsViews.lean ====
section
/-! DEFINITION. View and light commands (10.4): SET_PAN, FORCE_LIGHT, GET_GLARE and GET_TIMING. -/

namespace Sys2Proof.Machine

/-! ### SET_PAN (R58, R207) -/

/-- The VIEW words that SET_PAN latches for a view: its pan limits and scale. -/
def panWords (v : View) : List Nat := [8 * v.index + 1, 8 * v.index + 2, 8 * v.index + 3]

/-- The applied origin of a requested one (R58). -/
def panOrigin (v : View) (f : PanFields) (x y : Nat) : Nat × Nat :=
  (min (min (max x f.xLo) f.xHi) (1920 - 40 * f.scale), min (min (max y f.yLo) f.yHi) (1280 - v.heightFactor * f.scale))

/-- A SET_PAN that is taken. -/
def acceptedPan (v : View) (x y : Nat) (s : State) : Reply × State :=
  let (read, s1) := s.latch .view (panWords v)
  let o := panOrigin v ((read.map fun ws => panFieldsOf ws v).getD panFieldsFallback) x y
  (⟨if o = (x, y) then .ok else .clamped, bytes2 o.1 ++ bytes2 o.2⟩,
    s1.modView v fun u => { u with originX := o.1, originY := o.2 })

/-- SET_PAN moves a view's window. -/
def setPanBody (param : List Byte) (s : State) : Reply × State :=
  match param with
  | [vb, x0, x1, y0, y1] =>
    match viewOf vb with
    | none => (refuse .badParam, s)
    | some v => acceptedPan v (numberOf [x0, x1]) (numberOf [y0, y1]) s
  | _ => (refuse .badParam, s)

/-! ### FORCE_LIGHT (R109, R208) -/

/-- FORCE_LIGHT forces or releases a side's day/night state. -/
def forceLightBody (param : List Byte) (s : State) : Reply × State :=
  match param with
  | [sb, fb] =>
    match sideOf sb, forceOf fb with
    | some side, some f =>
      (⟨.ok, byte1 (lightByte ((s.unit side).light.forced f))⟩, s.modLight side fun l => l.forced f)
    | _, _ => (refuse .badParam, s)
  | _ => (refuse .badParam, s)

/-! ### GET_GLARE and GET_TIMING (R209, R210) -/

/-- GET_GLARE reads a side's glare status and then sets the dropped counts to 0 (R99). -/
def getGlareBody (param : List Byte) (s : State) : Reply × State :=
  withSide param s fun side =>
    (⟨.ok, glareBytes s side⟩, s.modGlare side fun g => { g with droppedComponents := 0, droppedCandidates := 0 })

/-- GET_TIMING reads the timing snapshot. -/
def getTimingBody (param : List Byte) (s : State) : Reply × State := withNone param s (⟨.ok, snapshotBytes s⟩, s)

/-! ### The meanings -/

/-- SET_PAN (R207). -/
def execSetPan (t : Time) (link : Side) (tag : Byte) (param : List Byte) (s : State) : Answer :=
  s.command t link 0x20 tag param (setPanBody param)

/-- FORCE_LIGHT (R208). -/
def execForceLight (t : Time) (link : Side) (tag : Byte) (param : List Byte) (s : State) : Answer :=
  s.command t link 0x21 tag param (forceLightBody param)

/-- GET_GLARE (R209). -/
def execGetGlare (t : Time) (link : Side) (tag : Byte) (param : List Byte) (s : State) : Answer :=
  s.command t link 0x22 tag param (getGlareBody param)

/-- GET_TIMING (R210). -/
def execGetTiming (t : Time) (link : Side) (tag : Byte) (param : List Byte) (s : State) : Answer :=
  s.command t link 0x23 tag param (getTimingBody param)

end Sys2Proof.Machine
end

