-- ==== Sys2Proof/Machine/Resets.lean ====
section
/-! DEFINITION. The two resets: power-on and the soft reset instant. -/

namespace Sys2Proof.Machine

/-- POWER_ON: every block takes its power-on state, and device time starts from 0 (R26, R48, R74, R98, R115,
R139, R141, R154, R176, R191). The steps that wait are the environment's and stay. -/
def execPowerOn (s : State) : Answer := .next { State.reset with pending := s.pending }

/-! ### Soft reset, block by block -/

/-- The ingest of a side (R26): a pending pattern request is withdrawn, and the silent timer armed. -/
def Ingest.softReset (i : Ingest) (silentDue : Nat) : Ingest :=
  { i.withdraw with
    frame := none
    expected := none
    lastSignature := none
    identicalRun := 0
    prevStart := none
    lastPeriod := none
    lastActive := none
    slotHeld := false
    silentDue := some silentDue }

/-- A view (R74): the current origin is set by R57, the current output frame is not cut. -/
def ViewUnit.softReset (u : ViewUnit) (origin : Nat × Nat) : ViewUnit :=
  { u with
    ring := { u.ring.freeAll with superseded := 0 }
    originX := origin.1
    originY := origin.2
    state := .notReady
    recovery := 0
    latency := none }

/-- The output timing of a display (R74): the next start is due at the previous one plus the nominal period
latched there. -/
def Composer.softReset (c : Composer) : Composer :=
  ({ c with
    timing := .free
    inWindow := 0
    pendingEnd := none
    period := none
    completion := none } : Composer).setFreeDue

/-- The light controller of a side (R115). -/
def Light.softReset (l : Light) : Light := { l with force := .auto, phase := .idle }

/-- The self-test sequencer of a side (R154). -/
def Sequencer.softReset (q : Sequencer) : Sequencer := { q with run := none }

/-- The blocks of a side at a soft reset (R26, R48, R56, R74, R98, R115, R154, R191). -/
def SideUnit.softReset (u : SideUnit) (silentDue : Nat) (main wide : Nat × Nat) : SideUnit where
  ingest := u.ingest.softReset silentDue
  pass := .idle
  glare := {}
  main := u.main.softReset main
  wide := u.wide.softReset wide
  buffer := {}
  composer := u.composer.softReset
  light := u.light.softReset
  sequencer := u.sequencer.softReset
  channel := {}

/-- The fault manager, before it takes the standing conditions (R140). -/
def FaultManager.softReset (fm : FaultManager) : FaultManager where
  flags := 0
  enables := fm.enables
  conditions := 0
  pulses := Vector.replicate 51 none
  holdOff := none
  log := []
  nextSequence := 0
  lost := 0

/-- The detail of RESET_SEEN: SOFT (R118). -/
def resetSoft : Word := 2

/-- The standing camera condition of a side (R140). -/
def State.standCamera (s : State) (side : Side) : State :=
  if (s.unit side).ingest.link = .noSignal then s.activate (.cam side .linkLost) [] else s

/-- The standing display conditions of a side (R115, R140). -/
def State.standDisplay (s : State) (side : Side) : State :=
  let s1 := if (s.unit side).light.known then s else s.activate (.disp side .telemetryLost) []
  let status := (s.unit side).light.status
  if status = 0 then s1 else s1.activate (.disp side .displayReported) [status.zeroExtend 32]

/-- TABLE_DED stands active while a kind is CORRUPT, with the head of the corruption list (R141, R177). -/
def State.standTables (s : State) : State :=
  match s.tables.corruptions with
  | [] => s
  | (k, off) :: _ => s.activate (.core .tableDed) [BitVec.ofNat 32 k.code, BitVec.ofNat 32 off]

/-- RESET_SEEN, and one occurrence for each standing condition in order of source and kind (R141). -/
def State.takeStanding (s : State) : State :=
  (((((s.raise (.core .resetSeen) [resetSoft]).standCamera .left).standCamera .right).standDisplay .left).standDisplay
    .right).standTables

/-- Sync copies in progress are completed before the reset ends (R177). -/
def State.finishSyncs (s : State) : State := allKinds.foldl (fun s1 k => s1.finishSync k k.size) s

/-- The silent timeout latched from TIMING at a reset, as the instant the timer runs out (R24). -/
def State.latchSilentDue (s : State) : Nat × State :=
  let (read, s1) := s.latch .timing [2]
  (s1.clock + (read.map fun ws => bits (wordAt ws 2) 0 10).getD Config.fallbackSilentMs * 1000, s1)

/-- The origin of a view at a soft reset (R57). -/
def resetOriginOf (read : Option (List (Nat × Word))) (v : View) : Nat × Nat :=
  (read.map fun ws => defaultOrigin ws v).getD (0, fallbackOriginY v)

/-- The soft reset of every block (log 14 for the order). -/
def State.performSoftReset (s : State) : State :=
  let (dueL, s1) := s.finishSyncs.latchSilentDue
  let (dueR, s2) := s1.latchSilentDue
  let (read, s3) := s2.latch .view [0, 8, 16, 24]
  ({ s3 with
    mode := .config
    left := s3.left.softReset dueL (resetOriginOf read .leftMain) (resetOriginOf read .leftWide)
    right := s3.right.softReset dueR (resetOriginOf read .rightMain) (resetOriginOf read .rightWide)
    latestStartL := none
    skew := none
    faults := s3.faults.softReset
    executor := .idle
    lastServed := .right } : State).takeStanding

/-- SOFT_RESET_INSTANT (R190): the trailer that carried the SOFT_RESET response has left; the response was the
last of its link, so the link's response queue is empty. -/
def execSoftResetInstant (t : Time) (s : State) : Answer :=
  let s0 := s.advance t
  .next (match s0.executor with
    | .resetPending link => if (s0.unit link).channel.responses = [] then s0.performSoftReset else s0
    | _ => s0)

end Sys2Proof.Machine
end

