-- ==== Sys2Proof/Machine/StoreSteps.lean ====
section
/-! DEFINITION. Steps of the table store (the end of its clearing, a word copy of a sync, a scrubber visit) and
the running-out of the ambient timer. -/

namespace Sys2Proof.Machine

/-- The clearing of the table RAM ends: every word is a clean 0, and the first scrubber visit is due 50 µs later
(R176). -/
def State.endClearing (s : State) : State :=
  { s with
    clearing := false
    tables := { s.tables with ram := [], scrubDue := some (s.clock + Config.scrubInterval) } }

/-- TABLE_CLEAR_END (R176): 2 ms after the release of the reset input. -/
def execTableClearEnd (t : Time) (s : State) : Answer :=
  let s0 := s.advance t
  .next (if s0.clearing = true ∧ Config.clearingTime ≤ s0.clock then s0.endClearing else s0)

/-- SYNC_WORD_COPY (R168). -/
def execSyncWordCopy (t : Time) (k : Kind) (s : State) : Answer := .next ((s.advance t).syncStep k)

/-- Stored bits are disturbed (R156). -/
def State.disturbAll (s : State) (upsets : List Upset) : State :=
  { s with tables := upsets.foldl TableStore.disturb s.tables }

/-- SCRUB_VISIT (R173), with the disturbances of stored words that have come about by now (log 5). -/
def execScrubVisit (t : Time) (upsets : List Upset) (s : State) : Answer :=
  .next (((s.advance t).disturbAll upsets).scrubIfDue)

/-- AMBIENT_TIMER_EXPIRY (R101). -/
def execAmbientTimerExpiry (t : Time) (side : Side) (s : State) : Answer :=
  let s0 := s.advance t
  .next (if timeUp (s0.unit side).light.ambientDue s0.clock then s0.ambientLost side else s0)

end Sys2Proof.Machine
end

