-- ==== Sys2Proof/Machine/Dispatch.lean ====
section
/-! DEFINITION. The dispatch: one arm per row of spec/opcode_table.json, each one call of its meaning. -/

namespace Sys2Proof.Machine

def exec (i : Instr) (s : State) : Host.Outcome State Fault Refusal :=
  match i with
  | .powerOn => Sys2Proof.Machine.execPowerOn s
  | .tableClearEnd t => Sys2Proof.Machine.execTableClearEnd t s
  | .softResetInstant t => Sys2Proof.Machine.execSoftResetInstant t s
  | .linkLost t side => Sys2Proof.Machine.execLinkLost t side s
  | .linkLock t side => Sys2Proof.Machine.execLinkLock t side s
  | .frameStart t side => Sys2Proof.Machine.execFrameStart t side s
  | .embeddedLine t side good codes => Sys2Proof.Machine.execEmbeddedLine t side good codes s
  | .activeLine t side index good codes => Sys2Proof.Machine.execActiveLine t side index good codes s
  | .frameEnd t side => Sys2Proof.Machine.execFrameEnd t side s
  | .referencePassEnd t side => Sys2Proof.Machine.execReferencePassEnd t side s
  | .silentTimerExpiry t side => Sys2Proof.Machine.execSilentTimerExpiry t side s
  | .frameStartStampExpiry t side => Sys2Proof.Machine.execFrameStartStampExpiry t side s
  | .completionStampExpiry t side => Sys2Proof.Machine.execCompletionStampExpiry t side s
  | .ddrWriteFail t view => Sys2Proof.Machine.execDdrWriteFail t view s
  | .regionReadDone t view ok => Sys2Proof.Machine.execRegionReadDone t view ok s
  | .outputFrameStart t side => Sys2Proof.Machine.execOutputFrameStart t side s
  | .returnLaneByte t link byte => Sys2Proof.Machine.execReturnLaneByte t link byte s
  | .packetTimeout t link => Sys2Proof.Machine.execPacketTimeout t link s
  | .ambientTimerExpiry t side => Sys2Proof.Machine.execAmbientTimerExpiry t side s
  | .pulseExpiry t descriptor => Sys2Proof.Machine.execPulseExpiry t descriptor s
  | .holdOffExpiry t => Sys2Proof.Machine.execHoldOffExpiry t s
  | .selftestStepTimeout t side => Sys2Proof.Machine.execSelftestStepTimeout t side s
  | .storeWriteDone t side ok => Sys2Proof.Machine.execStoreWriteDone t side ok s
  | .storeReadDone t side data => Sys2Proof.Machine.execStoreReadDone t side data s
  | .syncWordCopy t kind => Sys2Proof.Machine.execSyncWordCopy t kind s
  | .scrubVisit t upsets => Sys2Proof.Machine.execScrubVisit t upsets s
  | .echo t link tag param => Sys2Proof.Machine.execEcho t link tag param s
  | .getStatus t link tag param => Sys2Proof.Machine.execGetStatus t link tag param s
  | .enterRun t link tag param => Sys2Proof.Machine.execEnterRun t link tag param s
  | .enterConfig t link tag param => Sys2Proof.Machine.execEnterConfig t link tag param s
  | .softReset t link tag param => Sys2Proof.Machine.execSoftReset t link tag param s
  | .setChannel t link tag param => Sys2Proof.Machine.execSetChannel t link tag param s
  | .loadTable t link tag param => Sys2Proof.Machine.execLoadTable t link tag param s
  | .commitTable t link tag param => Sys2Proof.Machine.execCommitTable t link tag param s
  | .readTable t link tag param => Sys2Proof.Machine.execReadTable t link tag param s
  | .tableStatus t link tag param => Sys2Proof.Machine.execTableStatus t link tag param s
  | .lockTable t link tag param => Sys2Proof.Machine.execLockTable t link tag param s
  | .setPan t link tag param => Sys2Proof.Machine.execSetPan t link tag param s
  | .forceLight t link tag param => Sys2Proof.Machine.execForceLight t link tag param s
  | .getGlare t link tag param => Sys2Proof.Machine.execGetGlare t link tag param s
  | .getTiming t link tag param => Sys2Proof.Machine.execGetTiming t link tag param s
  | .getEvents t link tag param => Sys2Proof.Machine.execGetEvents t link tag param s
  | .clearEvents t link tag param => Sys2Proof.Machine.execClearEvents t link tag param s
  | .setEventEnable t link tag param => Sys2Proof.Machine.execSetEventEnable t link tag param s
  | .readLog t link tag param => Sys2Proof.Machine.execReadLog t link tag param s
  | .startSelftest t link tag param => Sys2Proof.Machine.execStartSelftest t link tag param s
  | .abortSelftest t link tag param => Sys2Proof.Machine.execAbortSelftest t link tag param s
  | .getSelftest t link tag param => Sys2Proof.Machine.execGetSelftest t link tag param s
  | .clearSelftest t link tag param => Sys2Proof.Machine.execClearSelftest t link tag param s
  | .badKindCommand t link tag kind param => Sys2Proof.Machine.execBadKindCommand t link tag kind param s

end Sys2Proof.Machine
end

