-- ==== Sys2Proof/Safety.lean ====
section
/-! DEFINITION. What a sound state of the part is, in the terms the statements use: the canonical table RAM, the
corruption list, the fault log, the buffer rings, the links' counts, the answer of a command, the table formats, and
the end of a self-test run. -/

namespace Sys2Proof.Machine

/-! ### The table store -/

/-- The table RAM has its canonical form, every sync copy has a word left to copy, and the scrubber's position is
an address (R156, R168, R173). -/
def TableStore.sound (ts : TableStore) : Prop :=
  ramWf ts.ram = true ∧ (∀ k c, (ts.kind k).sync = some c → c.next < k.size) ∧ ts.scrubPosition < Config.ramWords

/-- The kinds on the corruption list, in order (R161). -/
def TableStore.corruptKinds (ts : TableStore) : List Kind := ts.corruptions.map (·.1)

/-- The corruption list holds each CORRUPT kind once, and TABLE_DED is active while at least one kind is CORRUPT
(R120, R161). -/
def State.corruptionSound (s : State) : Prop :=
  s.tables.corruptKinds.Nodup ∧ (∀ k, k ∈ s.tables.corruptKinds ↔ (s.tables.kind k).corrupt = true) ∧
    (inSet s.faults.conditions (.core .tableDed) = true ↔ ∃ k, (s.tables.kind k).corrupt = true)

/-! ### The fault log -/

/-- The log holds at most 32 records, in increasing sequence with no gap, the last one just before the next
sequence number (R136); the enable of RESET_SEEN is set (R124). -/
def FaultManager.sound (fm : FaultManager) : Prop :=
  fm.log.length ≤ 32 ∧
    (∀ i r, fm.log[i]? = some r → r.sequence = fm.nextSequence - BitVec.ofNat 16 (fm.log.length - i)) ∧
    inSet fm.enables (.core .resetSeen) = true

/-! ### The rings -/

/-- The states of a ring's buffers. -/
def Ring.statuses (r : Ring) : List BufferStatus := [r.b0.status, r.b1.status, r.b2.status]

/-- At most one FILLING, at most one READY and at most one SHOWN buffer (R49). -/
def Ring.sound (r : Ring) : Prop :=
  r.statuses.count .filling ≤ 1 ∧ r.statuses.count .ready ≤ 1 ∧ r.statuses.count .shown ≤ 1

/-- Whether the frame in reception may still complete as an accepted developed frame: before its embedded line it
is UNDECIDED, with line 0 next. -/
def Ingest.mayFill (i : Ingest) : Prop :=
  ∃ f, i.frame = some f ∧ f.developed = true ∧
    ((f.treatment = .undecided ∧ f.nextLine = 0) ∨ f.treatment = .accepted)

/-- Both rings of a side are sound, and a FILLING buffer belongs to the frame in reception (R49, R50). -/
def SideUnit.sound (u : SideUnit) : Prop :=
  u.main.ring.sound ∧ u.wide.ring.sound ∧
    ((u.main.ring.has .filling = true ∨ u.wide.ring.has .filling = true) → u.ingest.mayFill)

/-- In RUN, a view in LIVE or HOLDING has a SHOWN buffer (3.3). -/
def State.viewsSound (s : State) : Prop :=
  s.left.sound ∧ s.right.sound ∧
    (s.mode = .run → ∀ v, (s.view v).state.showsPicture = true → (s.view v).ring.has .shown = true)

/-! ### The glare tracker -/

/-- The attenuations lie in 16..256 and are 256 for FREE and TENTATIVE tracks (R94), the IDs of the tracks that are
not FREE are distinct (R84), the dropped counts lie in 0..255 (R81, R89), and there are at most 8 candidates and at
most 6 zones, each with an attenuation in 16..255 (R81, R95). -/
def Glare.sound (g : Glare) : Prop :=
  (∀ i : Fin 6,
    let x := g.tracks[i.val]
    16 ≤ x.attenuation ∧ x.attenuation ≤ 256 ∧
      (x.state = .free ∨ x.state = .tentative → x.attenuation = 256)) ∧
  (∀ i j : Fin 6,
    g.tracks[i.val].state ≠ .free → g.tracks[j.val].state ≠ .free → g.tracks[i.val].id = g.tracks[j.val].id →
      i = j) ∧
  g.candidates.length ≤ 8 ∧ g.droppedComponents ≤ 255 ∧ g.droppedCandidates ≤ 255 ∧ g.zones.length ≤ 6 ∧
  ∀ z, z ∈ g.zones → 16 ≤ z.attenuation ∧ z.attenuation ≤ 255

/-- While GLARE is usable, the target attenuation in its live bank lies in 16..255 (R166, R178). -/
def State.glareTargetInRange (s : State) : Prop :=
  s.tables.usable .glare = true →
    let target := bits (s.tables.word .glare (s.tables.kind .glare).live 14).data 0 8
    16 ≤ target ∧ target ≤ 255

/-- The live target attenuation is in its range; during the clearing GLARE is not usable and no command is queued
(R176, R185). -/
def State.glareTablesSound (s : State) : Prop :=
  s.glareTargetInRange ∧
    (s.clearing = true →
      s.tables.usable .glare = false ∧ s.left.channel.queue = [] ∧ s.right.channel.queue = [])

/-! ### The links -/

/-- The command queue holds at most 4 commands, and the queued commands plus the undelivered responses never
exceed 8 (R185). -/
def Link.sound (l : Link) : Prop := l.queue.length ≤ 4 ∧ l.queue.length + l.responses.length ≤ 8

/-- Both links are sound, and the executor is not EXECUTING between steps (R186, R187). -/
def State.linksSound (s : State) : Prop :=
  s.left.channel.sound ∧ s.right.channel.sound ∧ s.executor ≠ .executing

/-! ### Commands -/

/-- The executor takes this command from this link: it is IDLE, and R186 selects the command. -/
def State.ready (s : State) (link : Side) (c : Command) : Prop := s.executor = .idle ∧ s.selected = some (link, c)

/-- The state in which the link's command has left its queue, the response stands at the tail of the link's
response queue, the link is the last served, and the executor is IDLE (R186 to R188). Nothing else differs. -/
def State.answered (s : State) (link : Side) (c : Command) (st : Status) (param : List Byte) : State :=
  let s1 := s.modChannel link fun l =>
    { l with
      queue := l.queue.tail
      responses := l.responses ++ [⟨c.tag, c.kind + 0x80, st.code, param⟩] }
  { s1 with executor := .idle, lastServed := link }

/-- The command of a command row: its device time, the link the executor takes it from, and the fields of its
packet; none for the other rows, and for a BAD_KIND_COMMAND row whose KIND is a command code or telemetry's. -/
def commandOf : Instr → Option (Time × Side × Command)
  | .powerOn | .tableClearEnd _ | .softResetInstant _ | .linkLost _ _ | .linkLock _ _ | .frameStart _ _
  | .embeddedLine _ _ _ _ | .activeLine _ _ _ _ _ | .frameEnd _ _ | .referencePassEnd _ _ | .silentTimerExpiry _ _
  | .frameStartStampExpiry _ _ | .completionStampExpiry _ _ | .ddrWriteFail _ _ | .regionReadDone _ _ _
  | .outputFrameStart _ _ | .returnLaneByte _ _ _ | .packetTimeout _ _ | .ambientTimerExpiry _ _
  | .pulseExpiry _ _ | .holdOffExpiry _ | .selftestStepTimeout _ _ | .storeWriteDone _ _ _
  | .storeReadDone _ _ _ | .syncWordCopy _ _ | .scrubVisit _ _ => none
  | .echo t link tag p => some (t, link, ⟨tag, 0x01, p⟩)
  | .getStatus t link tag p => some (t, link, ⟨tag, 0x02, p⟩)
  | .enterRun t link tag p => some (t, link, ⟨tag, 0x03, p⟩)
  | .enterConfig t link tag p => some (t, link, ⟨tag, 0x04, p⟩)
  | .softReset t link tag p => some (t, link, ⟨tag, 0x05, p⟩)
  | .setChannel t link tag p => some (t, link, ⟨tag, 0x06, p⟩)
  | .loadTable t link tag p => some (t, link, ⟨tag, 0x10, p⟩)
  | .commitTable t link tag p => some (t, link, ⟨tag, 0x11, p⟩)
  | .readTable t link tag p => some (t, link, ⟨tag, 0x12, p⟩)
  | .tableStatus t link tag p => some (t, link, ⟨tag, 0x13, p⟩)
  | .lockTable t link tag p => some (t, link, ⟨tag, 0x14, p⟩)
  | .setPan t link tag p => some (t, link, ⟨tag, 0x20, p⟩)
  | .forceLight t link tag p => some (t, link, ⟨tag, 0x21, p⟩)
  | .getGlare t link tag p => some (t, link, ⟨tag, 0x22, p⟩)
  | .getTiming t link tag p => some (t, link, ⟨tag, 0x23, p⟩)
  | .getEvents t link tag p => some (t, link, ⟨tag, 0x30, p⟩)
  | .clearEvents t link tag p => some (t, link, ⟨tag, 0x31, p⟩)
  | .setEventEnable t link tag p => some (t, link, ⟨tag, 0x32, p⟩)
  | .readLog t link tag p => some (t, link, ⟨tag, 0x33, p⟩)
  | .startSelftest t link tag p => some (t, link, ⟨tag, 0x40, p⟩)
  | .abortSelftest t link tag p => some (t, link, ⟨tag, 0x41, p⟩)
  | .getSelftest t link tag p => some (t, link, ⟨tag, 0x42, p⟩)
  | .clearSelftest t link tag p => some (t, link, ⟨tag, 0x43, p⟩)
  | .badKindCommand t link tag kind p =>
    if commandCodes.contains kind || kind == telemetryKind then none else some (t, link, ⟨tag, kind, p⟩)

/-- The bank sizes by kind code, 0 above 7 (R156). -/
def sizeOfCode (n : Nat) : Nat := [16, 16, 32, 132, 24, 24, 18, 12].getD n 0

/-- Whether the PARAM of a command has an allowed length and every field in its range (R195 to R219). -/
def paramAllowed (c : Command) : Bool :=
  let n := c.param.length
  let p := fun i => (c.param.getD i 0).toNat
  match c.kind with
  | 0x01 => decide (1 ≤ n ∧ n ≤ 60)
  | 0x02 | 0x03 | 0x04 | 0x05 | 0x13 | 0x23 | 0x30 => n == 0
  | 0x06 => n == 1
  | 0x10 => decide (6 ≤ n ∧ n ≤ 60 ∧ p 0 ≤ 7 ∧ p 1 < sizeOfCode (p 0))
  | 0x11 => decide (n = 3 ∧ p 0 ≤ 7)
  | 0x12 => decide (n = 4 ∧ p 0 ≤ 7 ∧ p 1 ≤ 1 ∧ p 2 < sizeOfCode (p 0) ∧ 1 ≤ p 3 ∧ p 3 ≤ 14)
  | 0x14 => decide (n = 1 ∧ p 0 ≤ 7)
  | 0x20 => decide (n = 5 ∧ p 0 ≤ 3)
  | 0x21 => decide (n = 2 ∧ p 0 ≤ 1 ∧ p 1 ≤ 2)
  | 0x22 | 0x41 | 0x42 | 0x43 => decide (n = 1 ∧ p 0 ≤ 1)
  | 0x31 => decide (n = 7 ∧ p 6 < 8 ∧ (c.param.any fun b => b != 0) = true)
  | 0x32 =>
    decide (n = 14 ∧ p 6 < 8 ∧ p 13 < 8 ∧ ((c.param.take 7).any fun b => b != 0) = true) &&
      (!(p 6).testBit 2 || (p 13).testBit 2)
  | 0x33 => decide (n = 1 ∧ 1 ≤ p 0 ∧ p 0 ≤ 4)
  | 0x40 => decide (n = 2 ∧ p 0 ≤ 1 ∧ 1 ≤ p 1 ∧ p 1 ≤ 31)
  | _ => false

/-! ### Reading with correction -/

/-- The state after words of a bank have been read of which none holds a double error: each single error is
written back and reported with one TABLE_SEC (R157). -/
def State.repaired (s : State) (k : Kind) (b : Bank) (offs : List Nat) : State :=
  offs.foldl
    (fun s1 off =>
      let w := s.tables.word k b off
      if w.errors = 1 then
        { s1 with tables := s1.tables.writeWord k b off w.data }.raise (.core .tableSec) (secDetail k b off)
      else s1)
    s

/-- The offset of the first word of a reading that holds a double error, if any. -/
def TableStore.firstDouble (ts : TableStore) (k : Kind) (b : Bank) (offs : List Nat) : Option Nat :=
  offs.find? fun off => decide (2 ≤ (ts.word k b off).errors)

/-- The words of a bank with their offsets, as corrected. -/
def TableStore.corrected (ts : TableStore) (k : Kind) (b : Bank) (offs : List Nat) : List (Nat × Word) :=
  offs.map fun off => (off, (ts.word k b off).data)

/-! ### Table formats -/

/-- A field of the formats of R178: the words of a kind that have it, its lowest bit, its width and its range. -/
structure FormatRow where
  kind : Kind
  words : List Nat
  lo : Nat
  width : Nat
  least : Nat
  most : Nat
deriving DecidableEq, Repr

/-- The rows of the profile formats (R178, CAMERA_L and CAMERA_R). -/
def profileRows (k : Kind) : List FormatRow :=
  [⟨k, [0], 0, 16, 0, 65535⟩, ⟨k, [0], 16, 1, 0, 1⟩, ⟨k, [1], 0, 6, 2, 60⟩, ⟨k, [1], 8, 6, 0, 63⟩,
    ⟨k, [2], 0, 12, 1, 4095⟩, ⟨k, [2], 16, 12, 1, 4095⟩, ⟨k, [3], 0, 12, 1, 4095⟩, ⟨k, [4], 0, 4, 0, 10⟩,
    ⟨k, [4], 8, 4, 0, 10⟩, ⟨k, [4], 16, 4, 0, 10⟩, ⟨k, [4], 24, 4, 0, 10⟩, ⟨k, [5], 0, 12, 0, 4095⟩,
    ⟨k, [6, 7, 8], 0, 10, 256, 1023⟩, ⟨k, [9], 0, 16, 0, 65535⟩, ⟨k, [9], 16, 16, 0, 65535⟩]

/-- The rows of the VIEW format, whose word i of view v is word 8v + i (R178). -/
def viewRows : List FormatRow :=
  let word := fun i => [i, 8 + i, 16 + i, 24 + i]
  [⟨.view, word 0, 0, 11, 0, 1919⟩, ⟨.view, word 0, 16, 11, 0, 1279⟩, ⟨.view, word 1, 0, 11, 0, 1919⟩,
    ⟨.view, word 1, 16, 11, 0, 1919⟩, ⟨.view, word 2, 0, 11, 0, 1279⟩, ⟨.view, word 2, 16, 11, 0, 1279⟩,
    ⟨.view, word 3, 0, 6, 32, 48⟩, ⟨.view, word 3, 8, 1, 0, 1⟩, ⟨.view, word 4, 0, 9, 40, 500⟩,
    ⟨.view, word 4, 16, 5, 1, 30⟩, ⟨.view, word 5, 0, 18, 20000, 250000⟩]

/-- The rows of the TONE, GLARE and LIGHT formats (R178). -/
def pictureRows : List FormatRow :=
  [⟨.tone, List.range 132, 0, 20, 0, 1048575⟩, ⟨.tone, List.range 132, 20, 10, 0, 1023⟩, ⟨.glare, [0, 1], 0, 1, 0, 1⟩,
    ⟨.glare, [2, 3], 0, 20, 0, 1048575⟩, ⟨.glare, [4, 5], 0, 6, 0, 63⟩, ⟨.glare, [6], 0, 20, 1, 1048575⟩,
    ⟨.glare, [7], 0, 13, 1, 4096⟩, ⟨.glare, [8], 0, 7, 1, 64⟩, ⟨.glare, [9], 0, 10, 1, 600⟩,
    ⟨.glare, [10], 0, 6, 1, 40⟩, ⟨.glare, [11], 0, 4, 1, 8⟩, ⟨.glare, [12], 0, 3, 1, 4⟩, ⟨.glare, [13], 0, 5, 1, 30⟩,
    ⟨.glare, [14], 0, 8, 16, 255⟩, ⟨.glare, [15, 16], 0, 8, 1, 240⟩, ⟨.glare, [17], 0, 3, 0, 4⟩,
    ⟨.light, [0], 0, 16, 0, 65535⟩, ⟨.light, [0], 16, 16, 0, 65535⟩, ⟨.light, [1, 2], 0, 20, 0, 1048575⟩,
    ⟨.light, [3], 0, 13, 0, 5000⟩, ⟨.light, [3], 16, 14, 0, 10000⟩, ⟨.light, [4], 0, 10, 0, 1023⟩,
    ⟨.light, [4], 16, 10, 0, 1023⟩, ⟨.light, [5], 0, 13, 0, 5000⟩, ⟨.light, List.range' 6 17, 0, 16, 0, 65535⟩,
    ⟨.light, List.range' 6 17, 16, 10, 0, 1023⟩]

/-- The rows of the POLICY and TIMING formats (R178). -/
def controlRows : List FormatRow :=
  let entry := List.range' 2 16
  [⟨.policy, [0], 0, 10, 0, 1000⟩, ⟨.policy, entry, 0, 1, 0, 1⟩, ⟨.policy, entry, 4, 3, 0, 7⟩,
    ⟨.policy, entry, 8, 6, 0, 63⟩, ⟨.policy, entry, 16, 6, 0, 63⟩, ⟨.policy, entry, 24, 2, 1, 3⟩,
    ⟨.policy, entry, 28, 2, 0, 2⟩, ⟨.timing, [0, 1], 0, 18, 1000, 200000⟩, ⟨.timing, [2], 0, 10, 20, 1000⟩,
    ⟨.timing, [2], 16, 13, 100, 5000⟩, ⟨.timing, [3, 6], 0, 1, 0, 1⟩, ⟨.timing, [4, 7], 0, 15, 15000, 20000⟩,
    ⟨.timing, [5, 8], 0, 14, 500, 10000⟩]

/-- The tables of R178. -/
def formatRows : List FormatRow :=
  profileRows .cameraL ++ profileRows .cameraR ++ viewRows ++ pictureRows ++ controlRows

/-- The cross-field rules of R166 that are charged to a word of a bank. -/
def crossRulesHold (k : Kind) (ws : List (Nat × Word)) (off : Nat) : Prop :=
  let field := fun w lo n : Nat => bits (wordAt ws w) lo n
  match k with
  | .cameraL | .cameraR =>
    let c1 := field 2 0 12
    let c2 := field 2 16 12
    let c3 := field 3 0 12
    let g := fun i => field 4 (8 * i) 4
    (off = 2 → c1 < c2) ∧ (off = 3 → c2 < c3) ∧
      (off = 4 → g 0 ≤ g 1 ∧ g 1 ≤ g 2 ∧ g 2 ≤ g 3 ∧
        c1 * 2 ^ g 0 + (c2 - c1) * 2 ^ g 1 + (c3 - c2) * 2 ^ g 2 + (4095 - c3) * 2 ^ g 3 ≤ 1048575)
  | .view => ∀ v, v < 4 →
    let x0 := field (8 * v) 0 11
    let y0 := field (8 * v) 16 11
    let scale := field (8 * v + 3) 0 6
    (off = 8 * v + 1 → field (8 * v + 1) 0 11 ≤ x0 ∧ x0 ≤ field (8 * v + 1) 16 11) ∧
      (off = 8 * v + 2 → field (8 * v + 2) 0 11 ≤ y0 ∧ y0 ≤ field (8 * v + 2) 16 11) ∧
      (off = 8 * v + 3 →
        x0 + 40 * scale ≤ 1920 ∧ y0 + (if v = 0 ∨ v = 2 then 16 * scale else 9 * scale) ≤ 1280)
  | .tone => ∀ c i, c < 4 → i ≤ 32 → off = 33 * c + i →
    (i = 0 → field off 0 20 = 0) ∧
      (1 ≤ i → field (off - 1) 0 20 < field off 0 20 ∧ field (off - 1) 20 10 ≤ field off 20 10) ∧
      (i = 32 → field off 0 20 = 1048575)
  | .light =>
    (off = 0 → field 0 0 16 < field 0 16 16) ∧ (off = 2 → field 1 0 20 < field 2 0 20) ∧
      (off = 6 → field 6 0 16 = 0) ∧
      (∀ i, 1 ≤ i → i ≤ 16 → off = 6 + i →
        field (off - 1) 0 16 < field off 0 16 ∧ field (off - 1) 16 10 ≤ field off 16 10) ∧
      (off = 22 → field 22 0 16 = 65535)
  | .timing => off = 1 → field 0 0 18 < field 1 0 18
  | .glare | .policy => True

/-- A word of a bank passes validation (R166, R178): it is a POLICY entry that is not valid; or every bit outside its
fields is 0, every field lies in its range (the source match of a POLICY entry is 0..4 or 7), and the cross-field rules
charged to it hold. -/
def wordAllowed (k : Kind) (ws : List (Nat × Word)) (off : Nat) : Prop :=
  let w := wordAt ws off
  (k = .policy ∧ 2 ≤ off ∧ w.getLsbD 0 = false) ∨
  ((∀ i, i < 32 → w.getLsbD i = true →
      ∃ r, r ∈ formatRows ∧ r.kind = k ∧ off ∈ r.words ∧ r.lo ≤ i ∧ i < r.lo + r.width) ∧
    (∀ r, r ∈ formatRows → r.kind = k → off ∈ r.words → r.least ≤ bits w r.lo r.width ∧ bits w r.lo r.width ≤ r.most) ∧
    (k = .policy → 2 ≤ off → bits w 4 3 ≤ 4 ∨ bits w 4 3 = 7) ∧ crossRulesHold k ws off)

/-! ### Self-test runs -/

/-- The state after the run in progress of a side has ended with outcomes (R151, R153): settled outcomes stand and all
others become OMITTED in the last-run outcomes; the pattern request is withdrawn (R4), the slot request dropped, a
reference pass abandoned, and the transfers of the self-test buffer run on unnoticed; SELFTEST_DONE, then SELFTEST_FAIL
when steps failed, are raised. Without a run nothing changes. -/
def State.runEnded (s : State) (side : Side) : State :=
  match (s.unit side).sequencer.run with
  | none => s
  | some r =>
    let outcomes := r.outcomes.map fun o => o.getD .omitted
    let s1 := s.modUnit side fun u =>
      { u with
        sequencer := { u.sequencer with run := none, last := outcomes }
        ingest :=
          { u.ingest with
            patternPending := false, slotHeld := false
            sentRequests :=
              if u.ingest.patternPending = true ∧ u.ingest.link = .locked then u.ingest.sentRequests ++ [false]
              else u.ingest.sentRequests }
        pass := if u.pass.isReference then .idle else u.pass
        buffer := { u.buffer with transfers := u.buffer.transfers.map Transfer.disown } }
    let s2 := s1.raise (.cam side .selftestDone) [BitVec.ofNat 32 (outcomeBits outcomes)]
    if r.failures.stepBits = 0 then s2
    else s2.raise (.cam side .selftestFail) [BitVec.ofNat 32 r.failures.stepBits]

end Sys2Proof.Machine
end

