-- ==== Sys2Proof/Certificates/Slice0/Obligations.lean ====
section
/-! DEFINITION. The statements for the provers. Each docstring names the rules of spec/ that it formalises. In
every statement about a step, `s.advance t` is the state with device time moved on to the step's `t`. -/

open Sys2Proof Sys2Proof.Machine

/-! ### The machine -/

/-- A step takes the command at the front of the queue and is that command's meaning on the state with the rest
of the queue; on an empty queue the part idles (log 4). -/
def Obligations.StepRunsTheFrontOfTheQueue : Prop :=
  ∀ s : State,
    (∀ (c : Instr) (rest : List Instr), s.pending = c :: rest → step s = exec c { s with pending := rest }) ∧
    (s.pending = [] → step s = .next s)

/-- Every step of the table answers a next state, in every state and with every operand: the part never stops
(file 95: each step is whole; chapter 6: every failure is a condition or an event). -/
def Obligations.EveryStepAnswersANextState : Prop :=
  ∀ (i : Instr) (s : State), ∃ s', exec i s = .next s'

/-! ### Device and channel commands -/

/-- R197: GET_STATUS returns the mode, each view's state and superseded count, the link states, the light bytes
and the sequencers' run states; it then sets the superseded count of every view to 0, and nothing else changes. -/
def Obligations.GetStatusReportsAndClearsSuperseded : Prop :=
  ∀ (t : Time) (link : Side) (tag : Byte) (s : State), s.ready link ⟨tag, 0x02, []⟩ →
    let clear := fun u : ViewUnit => { u with ring := { u.ring with superseded := 0 } }
    let viewBytes := fun v : View =>
      [BitVec.ofNat 8 (s.view v).state.code] ++ bytes2 (s.view v).ring.superseded
    let lightByteOf := fun l : Light =>
      BitVec.ofNat 8 (l.dayNight.code + 16 * l.force.code + 64 * l.phase.code)
    exec (.getStatus t link tag []) s =
      .next ((((s.advance t).modViews .left clear).modViews .right clear).answered link ⟨tag, 0x02, []⟩ .ok
        ([BitVec.ofNat 8 s.mode.code] ++ viewBytes .leftMain ++ viewBytes .leftWide ++ viewBytes .rightMain ++
          viewBytes .rightWide ++
          [BitVec.ofNat 8 (bitOf (decide (s.left.ingest.link = .locked)) +
            2 * bitOf (decide (s.right.ingest.link = .locked))),
            lightByteOf s.left.light, lightByteOf s.right.light, BitVec.ofNat 8 (runCode s.left.sequencer),
            BitVec.ofNat 8 (runCode s.right.sequencer)]))

/-- R198: ENTER_RUN is refused with WRONG_MODE in RUN; in CONFIG it is refused with MISSING, and a byte naming the
kinds, when CAMERA_L, CAMERA_R, VIEW, TONE or TIMING is not usable; otherwise the mode becomes RUN and every view
LOST with recovery count 0, and nothing else changes. -/
def Obligations.EnterRunStartsOrIsRefused : Prop :=
  ∀ (t : Time) (link : Side) (tag : Byte) (s : State), s.ready link ⟨tag, 0x03, []⟩ →
    let missing := bitOf (!s.tables.usable .cameraL) + 2 * bitOf (!s.tables.usable .cameraR) +
      4 * bitOf (!s.tables.usable .view) + 8 * bitOf (!s.tables.usable .tone) + 128 * bitOf (!s.tables.usable .timing)
    let lost := fun u : ViewUnit => { u with state := .lost, recovery := 0 }
    exec (.enterRun t link tag []) s =
      if s.mode = .run then .next ((s.advance t).answered link ⟨tag, 0x03, []⟩ .wrongMode [])
      else if missing ≠ 0 then
        .next ((s.advance t).answered link ⟨tag, 0x03, []⟩ .missing [BitVec.ofNat 8 missing])
      else
        .next ((({ s.advance t with mode := .run }.modViews .left lost).modViews .right lost).answered link
          ⟨tag, 0x03, []⟩ .ok [])

/-- R199, R12, R27, R52, R97, R110, R151, R153: ENTER_CONFIG is refused with WRONG_MODE in CONFIG. In RUN the mode
becomes CONFIG; on both sides the frame in reception is no longer marked developed, a camera pass is abandoned, every
buffer is FREE, the tracker is cleared and GLARE_OVERLOAD inactive, the light phase is IDLE, and a self-test run ends
with outcomes and its reports; nothing else changes. That side L is stopped before side R is the model's choice
(log 8). -/
def Obligations.EnterConfigStopsDevelopment : Prop :=
  ∀ (t : Time) (link : Side) (tag : Byte) (s : State), s.ready link ⟨tag, 0x04, []⟩ →
    let free := fun b : Buffer => { b with status := .free, record := none }
    let emptied := fun u : ViewUnit =>
      { u with ring := { u.ring with b0 := free u.ring.b0, b1 := free u.ring.b1, b2 := free u.ring.b2 } }
    let stopped := fun (s1 : State) (side : Side) =>
      ({ s1 with
        faults :=
          { s1.faults with conditions := withoutD s1.faults.conditions (.cam side .glareOverload) } }.modUnit side
        fun u : SideUnit =>
          { u with
            ingest := { u.ingest with frame := u.ingest.frame.map fun f : FrameRecord => { f with developed := false } }
            pass :=
              match u.pass with
              | .camera _ => .idle
              | p => p
            main := emptied u.main
            wide := emptied u.wide
            glare :=
              { u.glare with
                tracks := Vector.replicate 6 {}, candidates := [], zones := [], hotTotal := 0, running := false }
            light := { u.light with phase := .idle } }).runEnded side
    (s.mode = .config →
      exec (.enterConfig t link tag []) s = .next ((s.advance t).answered link ⟨tag, 0x04, []⟩ .wrongMode [])) ∧
    (s.mode = .run →
      exec (.enterConfig t link tag []) s =
        .next ((stopped (stopped { s.advance t with mode := .config } .left) .right).answered link ⟨tag, 0x04, []⟩ .ok
          []))

/-- R196, R200, R190, R201: ECHO returns a PARAM of 1 to 60 bytes with OK, and refuses an empty one with BAD_PARAM;
SOFT_RESET answers OK and makes the executor RESET_PENDING; SET_CHANNEL sets the packet timeout of the link that
carried it and answers the same byte. Nothing else changes. -/
def Obligations.EchoSoftResetAndSetChannelAnswer : Prop :=
  ∀ (t : Time) (link : Side) (tag : Byte) (param : List Byte) (s : State),
    (s.ready link ⟨tag, 0x01, param⟩ →
      exec (.echo t link tag param) s =
        if 1 ≤ param.length ∧ param.length ≤ 60 then
          .next ((s.advance t).answered link ⟨tag, 0x01, param⟩ .ok param)
        else .next ((s.advance t).answered link ⟨tag, 0x01, param⟩ .badParam [])) ∧
    (s.ready link ⟨tag, 0x05, []⟩ →
      exec (.softReset t link tag []) s =
        .next { (s.advance t).answered link ⟨tag, 0x05, []⟩ .ok [] with executor := .resetPending link }) ∧
    (∀ ms : Byte, s.ready link ⟨tag, 0x06, [ms]⟩ →
      exec (.setChannel t link tag [ms]) s =
        .next (((s.advance t).modChannel link fun l => { l with timeoutMs := ms.toNat }).answered link
          ⟨tag, 0x06, [ms]⟩ .ok [ms]))

/-! ### The executor -/

/-- R186, and the model's choice (log 3) of how command rows meet it. In IDLE the executor takes the oldest command
of a link: of the link that holds commands alone, or of the link not last served when both do (R186). A command row
that the executor does not take now carries nothing out; a row whose link's queue is empty brings its own packet,
which R185 accepts before the executor looks at it (log 3). -/
def Obligations.TheExecutorTakesCommandsInTurn : Prop :=
  (∀ (s : State) (link : Side) (c : Command), s.executor = .idle →
    (s.ready link c ↔
      (s.unit link).channel.queue.head? = some c ∧
        ((s.unit link.other).channel.queue = [] ∨ s.lastServed = link.other))) ∧
  (∀ (i : Instr) (t : Time) (link : Side) (c : Command) (s : State), commandOf i = some (t, link, c) →
    ((s.unit link).channel.queue ≠ [] → ¬ s.ready link c → exec i s = .next (s.advance t)) ∧
    ((s.unit link).channel.queue = [] → s.clearing = false → c.param.length ≤ 60 →
      (s.unit link).channel.responses.length < 8 →
        exec i s = exec i (s.modChannel link fun l => { l with queue := [c] })))

/-- R187, R195, with the fields and lengths of R196 to R219: a KIND that is no command code is refused with
BAD_KIND, and a command whose PARAM has a length its section does not allow, or a field outside its range, with
BAD_PARAM; the response PARAM is empty, and nothing else changes. -/
def Obligations.BadKindsAndBadParametersAreRefused : Prop :=
  ∀ (i : Instr) (t : Time) (link : Side) (c : Command) (s : State), commandOf i = some (t, link, c) →
    s.ready link c →
      (c.kind ∉ commandCodes → exec i s = .next ((s.advance t).answered link c .badKind [])) ∧
      (c.kind ∈ commandCodes → paramAllowed c = false →
        exec i s = .next ((s.advance t).answered link c .badParam []))

/-! ### Table commands -/

/-- R162, R202: an allowed LOAD_TABLE is refused with LOCKED, then BUSY; otherwise it writes the whole words that fit,
least significant byte first and with fresh check bits, into the shadow bank at consecutive offsets, every other word
of the table RAM stands, and nothing else changes. Stated for a table RAM in its canonical form, which every step
keeps (EveryStepKeepsTheTablesSound). -/
def Obligations.LoadTableWritesTheShadowBank : Prop :=
  ∀ (t : Time) (link : Side) (tag ob : Byte) (k : Kind) (data : List Byte) (s : State),
    4 ≤ data.length → data.length ≤ 58 → ob.toNat < k.size → ramWf s.tables.ram = true →
    let c : Command := ⟨tag, 0x10, BitVec.ofNat 8 k.code :: ob :: data⟩
    let shadow := (s.tables.kind k).live.other
    let n := min (data.length / 4) (k.size - ob.toNat)
    s.ready link c →
      ((s.tables.kind k).locked = true →
        exec (.loadTable t link tag c.param) s = .next ((s.advance t).answered link c .locked [])) ∧
      ((s.tables.kind k).locked = false → (s.tables.kind k).sync.isSome = true →
        exec (.loadTable t link tag c.param) s = .next ((s.advance t).answered link c .busy [])) ∧
      ((s.tables.kind k).locked = false → (s.tables.kind k).sync = none →
        ∃ ram : List (Nat × TableWord),
          exec (.loadTable t link tag c.param) s =
            .next ({ s.advance t with tables := { s.tables with ram := ram } }.answered link c
              (if data.length % 4 = 0 ∧ n = data.length / 4 then .ok else .truncated) [BitVec.ofNat 8 n]) ∧
          (∀ i, i < n →
            ramRead ram (ramAddress k shadow (ob.toNat + i)) =
              ⟨data.getD (4 * i + 3) 0 ++ data.getD (4 * i + 2) 0 ++ data.getD (4 * i + 1) 0 ++ data.getD (4 * i) 0,
                0⟩) ∧
          (∀ a, (∀ i, i < n → a ≠ ramAddress k shadow (ob.toNat + i)) → ramRead ram a = ramRead s.tables.ram a))

/-- R164, R167, R203, R57, R159: a COMMIT_TABLE of a kind that is not locked and not SYNCING, whose shadow has no
double error, agrees with the CRC and is valid, makes the shadow live, raises the generation by one (65535 wraps
to 1), makes the health GOOD, takes the kind off the corruption list (TABLE_DED ends with the last entry), begins
the sync copy and, for VIEW, sets the four current origins; single errors of the shadow are corrected and reported,
and nothing else changes. -/
def Obligations.CommitTableMakesTheShadowLive : Prop :=
  ∀ (t : Time) (link : Side) (tag c0 c1 : Byte) (k : Kind) (s : State),
    let c : Command := ⟨tag, 0x11, [BitVec.ofNat 8 k.code, c0, c1]⟩
    let r := s.tables.kind k
    let offs := List.range k.size
    let ws := s.tables.corrected k r.live.other offs
    let s1 := (s.advance t).repaired k r.live.other offs
    let list := s.tables.corruptions.filter fun e => e.1 != k
    let generation := if r.generation = 65535 then 1 else r.generation + 1
    let committed : TableStore :=
      { s1.tables.modKind k (fun x =>
          { x with live := r.live.other, generation := generation, corrupt := false, sync := some ⟨s1.clock, 0⟩ }) with
        corruptions := list }
    let faults :=
      if r.corrupt = true ∧ list = [] then
        { s1.faults with conditions := withoutD s1.faults.conditions (.core .tableDed) }
      else s1.faults
    let origin := fun (v : View) (u : ViewUnit) =>
      if k = .view then
        { u with
          originX := bits (wordAt ws (8 * v.index)) 0 11
          originY := bits (wordAt ws (8 * v.index)) 16 11 }
      else u
    s.ready link c → r.locked = false → r.sync = none → s.tables.firstDouble k r.live.other offs = none →
    crc16 (ws.flatMap fun e => bytes4 e.2.toNat) = c1 ++ c0 → firstInvalid k ws = none →
      exec (.commitTable t link tag c.param) s =
        .next ((((({ s1 with tables := committed, faults := faults }.modView .leftMain (origin .leftMain)).modView
          .leftWide (origin .leftWide)).modView .rightMain (origin .rightMain)).modView .rightWide
            (origin .rightWide)).answered link c .ok (bytes2 generation))

/-- R164, R165, R166, R178, R203, R169, R171: the refusals of a COMMIT_TABLE, in order: LOCKED and BUSY, which read
nothing; MEMORY_ERROR with the offset of the first double error; CRC_MISMATCH with the CRC the store computed;
INVALID with the offset of the first invalid word. The single errors met before are corrected and reported, and
nothing else changes. The first invalid word is the first one that breaks the formats of R178 or a cross-field rule of
R166 charged to it, and a bank without one is valid. -/
def Obligations.CommitTableRefusals : Prop :=
  (∀ (k : Kind) (ws : List (Nat × Word)),
    (∀ e, firstInvalid k ws = some e ↔
      e < k.size ∧ ¬ wordAllowed k ws e ∧ ∀ off, off < e → wordAllowed k ws off) ∧
    (firstInvalid k ws = none ↔ ∀ off, off < k.size → wordAllowed k ws off)) ∧
  (∀ (t : Time) (link : Side) (tag c0 c1 : Byte) (k : Kind) (s : State),
    let c : Command := ⟨tag, 0x11, [BitVec.ofNat 8 k.code, c0, c1]⟩
    let r := s.tables.kind k
    let offs := List.range k.size
    let ws := s.tables.corrected k r.live.other offs
    let crc := crc16 (ws.flatMap fun e => bytes4 e.2.toNat)
    let done := exec (.commitTable t link tag c.param) s
    s.ready link c →
      (r.locked = true → done = .next ((s.advance t).answered link c .locked [])) ∧
      (r.locked = false → r.sync.isSome = true → done = .next ((s.advance t).answered link c .busy [])) ∧
      (r.locked = false → r.sync = none →
        match s.tables.firstDouble k r.live.other offs with
        | some e =>
          done = .next (((s.advance t).repaired k r.live.other (List.range e)).answered link c .memoryError
            [BitVec.ofNat 8 e])
        | none =>
          (crc ≠ c1 ++ c0 →
            done = .next (((s.advance t).repaired k r.live.other offs).answered link c .crcMismatch
              [crc.truncate 8, (crc >>> 8).truncate 8])) ∧
          (crc = c1 ++ c0 → ∀ e, firstInvalid k ws = some e →
            done = .next (((s.advance t).repaired k r.live.other offs).answered link c .invalid [BitVec.ofNat 8 e]))))

/-- R170, R204: an allowed READ_TABLE is refused with BUSY when it names the shadow of a SYNCING kind; otherwise it
returns the corrected words from the offset up to the end of the bank, with OK or TRUNCATED, or MEMORY_ERROR and
the offset of the first double error, which in the live bank makes the kind CORRUPT. Single errors read are
corrected and reported, and nothing else changes. -/
def Obligations.ReadTableReturnsCorrectedWords : Prop :=
  ∀ (t : Time) (link : Side) (tag ob nb : Byte) (k : Kind) (shadow : Bool) (s : State),
    1 ≤ nb.toNat → nb.toNat ≤ 14 → ob.toNat < k.size →
    let c : Command := ⟨tag, 0x12, [BitVec.ofNat 8 k.code, if shadow then 1 else 0, ob, nb]⟩
    let r := s.tables.kind k
    let bank := if shadow then r.live.other else r.live
    let n := min nb.toNat (k.size - ob.toNat)
    let offs := List.range' ob.toNat n
    let done := exec (.readTable t link tag c.param) s
    s.ready link c →
      (shadow = true ∧ r.sync.isSome = true → done = .next ((s.advance t).answered link c .busy [])) ∧
      (¬(shadow = true ∧ r.sync.isSome = true) →
        match s.tables.firstDouble k bank offs with
        | none =>
          done = .next (((s.advance t).repaired k bank offs).answered link c
            (if ob.toNat + nb.toNat ≤ k.size then .ok else .truncated)
            (BitVec.ofNat 8 n :: (s.tables.corrected k bank offs).flatMap fun e => bytes4 e.2.toNat))
        | some e =>
          let s1 := (s.advance t).repaired k bank (List.range' ob.toNat (e - ob.toNat))
          done = .next ((if shadow then s1 else s1.corruptKind k e).answered link c .memoryError [BitVec.ofNat 8 e]))

/-- R205, R206, R171: TABLE_STATUS returns for each kind its generation, its state byte and the offset the
corruption list holds for it, and changes nothing; LOCK_TABLE makes its kind locked and changes nothing else. -/
def Obligations.TableStatusAndLockTableAnswer : Prop :=
  ∀ (t : Time) (link : Side) (tag : Byte) (s : State),
    let record := fun k : Kind =>
      let r := s.tables.kind k
      [BitVec.ofNat 8 r.generation, BitVec.ofNat 8 (r.generation / 256),
        BitVec.ofNat 8 ((if r.live = .bankB then 1 else 0) + (if r.sync.isSome then 2 else 0) +
          (if r.corrupt then 4 else 0) + (if r.locked then 8 else 0)),
        BitVec.ofNat 8 ((s.tables.corruptions.lookup k).getD 0)]
    (s.ready link ⟨tag, 0x13, []⟩ →
      exec (.tableStatus t link tag []) s =
        .next ((s.advance t).answered link ⟨tag, 0x13, []⟩ .ok
          (record .cameraL ++ record .cameraR ++ record .view ++ record .tone ++ record .glare ++ record .light ++
            record .policy ++ record .timing))) ∧
    (∀ k : Kind, s.ready link ⟨tag, 0x14, [BitVec.ofNat 8 k.code]⟩ →
      exec (.lockTable t link tag [BitVec.ofNat 8 k.code]) s =
        .next ({ s.advance t with tables := s.tables.modKind k fun r => { r with locked := true } }.answered link
          ⟨tag, 0x14, [BitVec.ofNat 8 k.code]⟩ .ok []))

/-! ### View and light commands -/

/-- R58, R207: SET_PAN moves the view's current origin to the request clamped into the pan limits and the sensor
bound, of the words latched from VIEW or of the fallback (s = 48, limits the full sensor area); it answers the
applied origin with OK when it is the request and CLAMPED otherwise, and nothing else changes. -/
def Obligations.SetPanAppliesTheClampedOrigin : Prop :=
  ∀ (t : Time) (link : Side) (tag x0 x1 y0 y1 : Byte) (v : View) (s : State),
    let c : Command := ⟨tag, 0x20, [BitVec.ofNat 8 v.index, x0, x1, y0, y1]⟩
    let x := (x1 ++ x0).toNat
    let y := (y1 ++ y0).toNat
    let latched := (s.advance t).latch .view [8 * v.index + 1, 8 * v.index + 2, 8 * v.index + 3]
    let field := fun (off lo n fallback : Nat) =>
      match latched.1 with
      | some ws => bits (wordAt ws (8 * v.index + off)) lo n
      | none => fallback
    let scale := field 3 0 6 48
    let ax := min (min (max x (field 1 0 11 0)) (field 1 16 11 1919)) (1920 - 40 * scale)
    let ay :=
      min (min (max y (field 2 0 11 0)) (field 2 16 11 1279)) (1280 - (if v.isMain then 16 else 9) * scale)
    s.ready link c →
      exec (.setPan t link tag c.param) s =
        .next ((latched.2.modView v fun u => { u with originX := ax, originY := ay }).answered link c
          (if ax = x ∧ ay = y then .ok else .clamped)
          [BitVec.ofNat 8 ax, BitVec.ofNat 8 (ax / 256), BitVec.ofNat 8 ay, BitVec.ofNat 8 (ay / 256)])

/-- R109, R208: FORCE_LIGHT sets the force setting of its side and makes the phase IDLE; DAY and NIGHT also set the
day/night state, AUTO keeps it. The response holds both, and nothing else changes. -/
def Obligations.ForceLightSetsTheState : Prop :=
  ∀ (t : Time) (link : Side) (tag : Byte) (side : Side) (f : Force) (s : State),
    let c : Command := ⟨tag, 0x21, [BitVec.ofNat 8 side.code, BitVec.ofNat 8 f.code]⟩
    let dayNight :=
      match f with
      | .auto => (s.unit side).light.dayNight
      | .day => .day
      | .night => .night
    s.ready link c →
      exec (.forceLight t link tag c.param) s =
        .next (((s.advance t).modLight side fun l =>
          { l with force := f, dayNight := dayNight, phase := .idle }).answered link c .ok
            [BitVec.ofNat 8 ((match dayNight with | .day => 0 | .night => 1) + 16 * f.code)])

/-- R99, R209, R83: GET_GLARE returns the 6 header bytes and the six slots, a FREE slot with attenuation 256 and
every other field 0; it then sets the side's two dropped counts to 0, and nothing else changes. -/
def Obligations.GetGlareReportsAndClearsTheDrops : Prop :=
  ∀ (t : Time) (link : Side) (tag : Byte) (side : Side) (s : State),
    let c : Command := ⟨tag, 0x22, [BitVec.ofNat 8 side.code]⟩
    let g := (s.unit side).glare
    let slot := fun x : Track =>
      if x.state = .free then [0, 0, 0, 0, 0, 0, 0, 0, 0, 0, 0, 0, 0, 1, 0, 0]
      else
        [BitVec.ofNat 8 x.state.code, x.id, BitVec.ofNat 8 x.qx, BitVec.ofNat 8 x.qy, BitVec.ofInt 8 x.vx,
          BitVec.ofInt 8 x.vy, BitVec.ofNat 8 x.box.x0, BitVec.ofNat 8 x.box.x1, BitVec.ofNat 8 x.box.y0,
          BitVec.ofNat 8 x.box.y1, x.history, BitVec.ofNat 8 x.misses] ++ bytes2 x.attenuation ++ bytes2 x.target
    s.ready link c →
      exec (.getGlare t link tag c.param) s =
        .next (((s.advance t).modGlare side fun y => { y with droppedComponents := 0, droppedCandidates := 0 }).answered
          link c .ok
          ([BitVec.ofNat 8 g.candidates.length, BitVec.ofNat 8 g.droppedComponents,
              BitVec.ofNat 8 g.droppedCandidates] ++ bytes2 g.hotTotal ++
            [BitVec.ofNat 8 ((if inSet s.faults.conditions (.cam side .glareOverload) then 1 else 0) +
              (if g.running then 2 else 0))] ++
            slot g.tracks[0] ++ slot g.tracks[1] ++ slot g.tracks[2] ++ slot g.tracks[3] ++ slot g.tracks[4] ++
            slot g.tracks[5]))

/-- R25, R210: GET_TIMING returns the two last periods, the two last active times, the skew and the two output
periods, each absent value as 0xFFFFFFFF, and the two timing states; nothing changes. -/
def Obligations.GetTimingReturnsTheSnapshot : Prop :=
  ∀ (t : Time) (link : Side) (tag : Byte) (s : State), s.ready link ⟨tag, 0x23, []⟩ →
    let value := fun v : Option Word => bytes4 (v.getD 0xFFFFFFFF).toNat
    let state := fun x : TimingState => match x with
      | .free => (0 : Byte)
      | .tracking => 1
    exec (.getTiming t link tag []) s =
      .next ((s.advance t).answered link ⟨tag, 0x23, []⟩ .ok
        (value s.left.ingest.lastPeriod ++ value s.right.ingest.lastPeriod ++ value s.left.ingest.lastActive ++
          value s.right.ingest.lastActive ++ value s.skew ++ value s.left.composer.period ++
          value s.right.composer.period ++ [state s.left.composer.timing, state s.right.composer.timing]))

/-! ### Fault commands -/

/-- R125, R128, R212: GET_EVENTS returns the flags, the enables and the active set as descriptor maps, the event
summary, whether the hold-off timer runs and its time left in ms, rounded up; nothing changes. -/
def Obligations.GetEventsReturnsTheFaultState : Prop :=
  ∀ (t : Time) (link : Side) (tag : Byte) (s : State), s.ready link ⟨tag, 0x30, []⟩ →
    let fm := s.faults
    let any := fun lo n : Nat => if fm.flags.extractLsb' lo n = 0 then 0 else 1
    ∃ act : BitVec 51, (∀ d : Descriptor, inSet act d = fm.active d) ∧
      exec (.getEvents t link tag []) s =
        .next ((s.advance t).answered link ⟨tag, 0x30, []⟩ .ok
          (mapBytes fm.flags ++ mapBytes fm.enables ++ mapBytes act ++
            [BitVec.ofNat 8 (any 0 13 + 2 * any 13 13 + 4 * any 26 12 + 8 * any 38 5 + 16 * any 43 5 + 32 * any 48 3)] ++
            (match fm.holdOff with
              | none => [0, 0, 0]
              | some due => 1 :: bytes2 ((due - (s.advance t).clock + 999) / 1000))))

/-- R126, R129, R213: CLEAR_EVENTS clears the listed flags and starts or restarts the hold-off timer with the time
latched from POLICY, or 100 ms; a time of 0 runs out at once. The model's choice (log 8): the latch comes before the
clear, so a flag that the latch sets is cleared when it is listed. The latch may raise TABLE_SEC, and may make
POLICY CORRUPT with what follows from that; beyond that, no condition copy, pulse, enable or record changes, and
nothing else does. -/
def Obligations.ClearEventsClearsFlagsAndHoldsOff : Prop :=
  ∀ (t : Time) (link : Side) (tag : Byte) (m : BitVec 51) (s : State), m ≠ 0 →
    let c : Command := ⟨tag, 0x31, mapBytes m⟩
    let latched := (s.advance t).latch .policy [0]
    let ms :=
      match latched.1 with
      | some ws => bits (wordAt ws 0) 0 10
      | none => 100
    let s1 := latched.2
    s.ready link c →
      exec (.clearEvents t link tag c.param) s =
        .next ({ s1 with
          faults :=
            { s1.faults with
              flags := s1.faults.flags &&& ~~~m
              holdOff := if ms = 0 then none else some (s1.clock + ms * 1000) } }.answered link c .ok [])

/-- R124, R214: SET_EVENT_ENABLE gives each selected enable its value bit and keeps the others, and answers the
enables; a map that would clear the enable of RESET_SEEN is no allowed PARAM. Nothing else changes. -/
def Obligations.SetEventEnableSetsTheSelectedEnables : Prop :=
  ∀ (t : Time) (link : Side) (tag : Byte) (select value : BitVec 51) (s : State), select ≠ 0 →
    (inSet select (.core .resetSeen) = true → inSet value (.core .resetSeen) = true) →
    let c : Command := ⟨tag, 0x32, mapBytes select ++ mapBytes value⟩
    s.ready link c →
      ∃ e : BitVec 51,
        (∀ d : Descriptor, inSet e d = if inSet select d then inSet value d else inSet s.faults.enables d) ∧
        exec (.setEventEnable t link tag c.param) s =
          .next ({ s.advance t with faults := { s.faults with enables := e } }.answered link c .ok (mapBytes e))

/-- R137, R215: READ_LOG removes the up to n oldest records and returns their number, the pending lost count and
the records, oldest first; nothing else changes. -/
def Obligations.ReadLogRemovesTheOldestRecords : Prop :=
  ∀ (t : Time) (link : Side) (tag nb : Byte) (s : State), 1 ≤ nb.toNat → nb.toNat ≤ 4 →
    let c : Command := ⟨tag, 0x33, [nb]⟩
    let taken := s.faults.log.take nb.toNat
    let record := fun r : FaultRecord =>
      bytes2 r.sequence.toNat ++ bytes4 r.time.toNat ++
        [BitVec.ofNat 8 r.descriptor.source, BitVec.ofNat 8 r.descriptor.kind,
          (match r.descriptor.viewIndex with
            | some v => BitVec.ofNat 8 v
            | none => 0xFF),
          BitVec.ofNat 8 r.lost, BitVec.ofNat 8 r.detail.length] ++ r.detail.flatMap fun w => bytes4 w.toNat
    s.ready link c →
      exec (.readLog t link tag [nb]) s =
        .next ({ s.advance t with faults := { s.faults with log := s.faults.log.drop nb.toNat } }.answered link c .ok
          ([BitVec.ofNat 8 taken.length, BitVec.ofNat 8 s.faults.lost] ++ taken.flatMap record))

/-! ### Self-test commands -/

/-- R142, R216: an allowed START_SELFTEST is refused with WRONG_MODE, then BUSY, then BLOCKED. Otherwise a run
begins and it answers OK; when the run goes on, its selection is the named one, every unselected step is
NOT_SELECTED and the last-run outcomes are kept; the other side's blocks stand. The first selected step that is not
omitted begins, as ASettledStepHandsOver says of each step, and nothing else changes; with LINK selected and the link
LOCKED, that is LINK with its timer armed for 200 ms. -/
def Obligations.StartSelftestBeginsOrIsRefused : Prop :=
  ∀ (t : Time) (link : Side) (tag : Byte) (side : Side) (selection : PerStep Bool) (s : State),
    selection.stepBits ≠ 0 →
    let c : Command := ⟨tag, 0x40, [BitVec.ofNat 8 side.code, BitVec.ofNat 8 selection.stepBits]⟩
    let q := (s.unit side).sequencer
    let done := exec (.startSelftest t link tag c.param) s
    s.ready link c →
      (s.mode = .config → done = .next ((s.advance t).answered link c .wrongMode [])) ∧
      (s.mode = .run → q.run.isSome = true → done = .next ((s.advance t).answered link c .busy [])) ∧
      (s.mode = .run → q.run = none → q.failFlags.stepBits ≠ 0 →
        done = .next ((s.advance t).answered link c .blocked [])) ∧
      (s.mode = .run → q.run = none → q.failFlags.stepBits = 0 →
        (∃ s', done = .next s' ∧ s'.mode = .run ∧ s'.executor = .idle ∧ s'.lastServed = link ∧
          (s'.unit link).channel.responses = (s.unit link).channel.responses ++ [⟨tag, 0xC0, 0x00, []⟩] ∧
          s'.unit side.other = ((s.answered link c .ok []).unit side.other) ∧
          (∀ r, (s'.unit side).sequencer.run = some r → r.selection = selection ∧
            (∀ st, selection.get st = false → r.outcomes.get st = some .notSelected) ∧
            (s'.unit side).sequencer.last = q.last)) ∧
        (∃ first : Run,
          first.selection = selection ∧
            first.outcomes = (selection.map fun b => if b then none else some .notSelected) ∧
            first.failures = ⟨false, false, false, false, false⟩ ∧ first.timerDue = none ∧ first.startsSeen = 0 ∧
            first.reference = none ∧ first.image = none ∧ first.writeSig = none ∧
            done =
              .next ((((s.advance t).modSequencer side fun x => { x with run := some first }).beginNext side
                [.link, .ident, .pattern, .develop, .store]).answered link c .ok [])) ∧
        (selection.link = true → (s.unit side).ingest.link = .locked →
          done = .next (((s.advance t).modSequencer side fun x =>
            { x with
              run := some
                { step := .link, selection := selection
                  outcomes := selection.map fun b => if b then none else some .notSelected
                  failures := ⟨false, false, false, false, false⟩, timerDue := some ((s.advance t).clock + 200000)
                  startsSeen := 0, reference := none, image := none, writeSig := none } }).answered link c .ok [])))

/-- R151, R153, R217: ABORT_SELFTEST of an IDLE side answers 0 and changes nothing. Of a RUNNING side it answers 1
and ends the run: settled outcomes stand and all others become OMITTED in the last-run outcomes, the pattern
request is withdrawn, the slot request dropped, a reference pass abandoned, the transfers of the self-test buffer
run on unnoticed, and SELFTEST_DONE, then SELFTEST_FAIL when steps failed, are raised. Nothing else changes. -/
def Obligations.AbortSelftestEndsTheRun : Prop :=
  ∀ (t : Time) (link : Side) (tag : Byte) (side : Side) (s : State),
    let c : Command := ⟨tag, 0x41, [BitVec.ofNat 8 side.code]⟩
    s.ready link c →
      match (s.unit side).sequencer.run with
      | none => exec (.abortSelftest t link tag c.param) s = .next ((s.advance t).answered link c .ok [0])
      | some r =>
        let outcomes := r.outcomes.map fun o => o.getD .omitted
        let s1 := (s.advance t).modUnit side fun u =>
          { u with
            sequencer := { u.sequencer with run := none, last := outcomes }
            ingest :=
              { u.ingest with
                patternPending := false, slotHeld := false
                sentRequests :=
                  if u.ingest.patternPending = true ∧ u.ingest.link = .locked then u.ingest.sentRequests ++ [false]
                  else u.ingest.sentRequests }
            pass := if u.pass.isReference then .idle else u.pass
            buffer := { u.buffer with transfers := u.buffer.transfers.map Transfer.disown } }
        let s2 := s1.raise (.cam side .selftestDone) [BitVec.ofNat 32 (outcomeBits outcomes)]
        let s3 :=
          if r.failures.stepBits = 0 then s2
          else s2.raise (.cam side .selftestFail) [BitVec.ofNat 32 r.failures.stepBits]
        exec (.abortSelftest t link tag c.param) s = .next (s3.answered link c .ok [1])

/-- R150, R155, R218, R219: GET_SELFTEST returns the 8 bytes of a side's sequencer and changes nothing;
CLEAR_SELFTEST clears the five fail flags of a side and changes nothing else. -/
def Obligations.GetSelftestReportsAndClearSelftestClears : Prop :=
  ∀ (t : Time) (link : Side) (tag : Byte) (side : Side) (s : State),
    let q := (s.unit side).sequencer
    let stepCode := fun st : Step =>
      match st with
      | .link => (1 : Byte)
      | .ident => 2
      | .pattern => 3
      | .develop => 4
      | .store => 5
    let two := fun (a b c d e : Nat) => bytes2 (a + 4 * b + 16 * c + 64 * d + 256 * e)
    let code := fun o : Option StepOutcome =>
      match o with
      | none => 0
      | some o => o.code
    (s.ready link ⟨tag, 0x42, [BitVec.ofNat 8 side.code]⟩ →
      exec (.getSelftest t link tag [BitVec.ofNat 8 side.code]) s =
        .next ((s.advance t).answered link ⟨tag, 0x42, [BitVec.ofNat 8 side.code]⟩ .ok
          ((match q.run with
            | none => [0, 0, 0, 0, 0]
            | some r =>
              [stepCode r.step, BitVec.ofNat 8 r.selection.stepBits,
                BitVec.ofNat 8 (r.outcomes.map (·.isSome)).stepBits] ++
                two (code r.outcomes.link) (code r.outcomes.ident) (code r.outcomes.pattern) (code r.outcomes.develop)
                  (code r.outcomes.store)) ++
            [BitVec.ofNat 8 q.failFlags.stepBits] ++
            two q.last.link.code q.last.ident.code q.last.pattern.code q.last.develop.code q.last.store.code))) ∧
    (s.ready link ⟨tag, 0x43, [BitVec.ofNat 8 side.code]⟩ →
      exec (.clearSelftest t link tag [BitVec.ofNat 8 side.code]) s =
        .next (((s.advance t).modSequencer side fun x =>
          { x with failFlags := ⟨false, false, false, false, false⟩ }).answered link
            ⟨tag, 0x43, [BitVec.ofNat 8 side.code]⟩ .ok []))

/-! ### Power-on and soft reset -/

/-- R139, R141, R176, R191, R26, R48, R57, R74, R98, R115, R154, R193: POWER_ON leaves device time at 0, the table RAM
in its clearing, the mode CONFIG, every block in its power-on state, five flags and five records; only the steps that
wait stay. Two clauses are the model's choices: that the table RAM reads as 0 at the start of its clearing (log 6),
and that no request counts as sent to a camera (log 12). Of the other values that log 12 names nothing is stated. -/
def Obligations.PowerOnLeavesThePowerOnState : Prop :=
  ∀ s : State, ∃ s', exec .powerOn s = .next s' ∧
    s'.pending = s.pending ∧ s'.clock = 0 ∧ s'.clearing = true ∧ s'.mode = .config ∧
    s'.skew = none ∧ s'.latestStartL = none ∧ s'.executor = .idle ∧ s'.lastServed = .right ∧
    (∀ side,
      let u := s'.unit side
      u.ingest =
        { link := .noSignal, frame := none, expected := none, lastSignature := none, identicalRun := 0,
          prevStart := none, lastPeriod := none, lastActive := none, patternPending := false, slotHeld := false,
          silentDue := some 200000, sentRequests := [] } ∧
      u.pass = .idle ∧
      u.glare.tracks = Vector.replicate 6 {} ∧ u.glare.candidates = [] ∧ u.glare.idCounter = 0 ∧ u.glare.zones = [] ∧
      u.glare.hotTotal = 0 ∧ u.glare.running = false ∧ u.glare.droppedComponents = 0 ∧
      u.glare.droppedCandidates = 0 ∧
      (u.light.dayNight = .day ∧ u.light.force = .auto ∧ u.light.phase = .idle ∧ u.light.ambient = 0 ∧
        u.light.known = false ∧ u.light.ambientDue = none ∧ u.light.stale = some 0 ∧ u.light.status = 0 ∧
        u.light.backlight = 512) ∧
      u.sequencer =
        { run := none, failFlags := ⟨false, false, false, false, false⟩,
          last := ⟨.notSelected, .notSelected, .notSelected, .notSelected, .notSelected⟩ } ∧
      u.channel = { receiver := .waitLen, timeoutMs := 20, queue := [], responses := [], discards := 0 } ∧
      u.buffer.content = none ∧
      (u.composer.timing = .free ∧ u.composer.inWindow = 0 ∧ u.composer.pendingEnd = none ∧
        u.composer.prevOut = none ∧ u.composer.nextOut = 16667 ∧ u.composer.period = none ∧
        u.composer.completion = none ∧ u.composer.frameNumber = 0)) ∧
    (∀ v,
      (s'.view v).ring.statuses = [.free, .free, .free] ∧ (s'.view v).ring.superseded = 0 ∧
        (s'.view v).state = .notReady ∧ (s'.view v).recovery = 0 ∧ (s'.view v).latency = none ∧
        (s'.view v).originX = 0 ∧ (s'.view v).originY = if v.isMain then 0 else 848) ∧
    (∀ d, inSet s'.faults.enables d = true) ∧
    (∀ d, inSet s'.faults.conditions d = true ↔
      d ∈ [Descriptor.cam .left .linkLost, .cam .right .linkLost, .disp .left .telemetryLost,
        .disp .right .telemetryLost]) ∧
    (∀ d, inSet s'.faults.flags d = (inSet s'.faults.conditions d || d == .core .resetSeen)) ∧
    (∀ d : Descriptor, s'.faults.pulses[d.index.val]'d.index.isLt =
      if d = .core .resetSeen then some 500000 else none) ∧
    s'.faults.holdOff = none ∧ s'.faults.nextSequence = 5 ∧ s'.faults.lost = 0 ∧
    s'.faults.log =
      [⟨0, 0, .core .resetSeen, [1], 0⟩, ⟨1, 0, .cam .left .linkLost, [], 0⟩, ⟨2, 0, .cam .right .linkLost, [], 0⟩,
        ⟨3, 0, .disp .left .telemetryLost, [], 0⟩, ⟨4, 0, .disp .right .telemetryLost, [], 0⟩] ∧
    (∀ a, ramRead s'.tables.ram a = ⟨0, 0⟩) ∧
    (∀ k, s'.tables.kind k =
      { live := .bankA, generation := 0, sync := none, corrupt := false, locked := false }) ∧
    s'.tables.corruptions = [] ∧ s'.tables.scrubPosition = 0 ∧ s'.tables.scrubDue = none

/-- R176: when the 2 ms of the clearing have passed, every word of the table RAM is 0 with valid check bits, the
receivers take bytes again, and the first scrubber visit is due 50 µs later; nothing else changes. Before that the
step changes only device time (log 2). -/
def Obligations.TableClearEndEndsTheClearing : Prop :=
  ∀ (t : Time) (s : State),
    let s0 := s.advance t
    (s.clearing = true → 2000 ≤ s0.clock →
      ∃ ram, (∀ a, ramRead ram a = ⟨0, 0⟩) ∧
        exec (.tableClearEnd t) s =
          .next { s0 with
            clearing := false, tables := { s.tables with ram := ram, scrubDue := some (s0.clock + 50) } }) ∧
    (s.clearing = false ∨ s0.clock < 2000 → exec (.tableClearEnd t) s = .next s0)

/-- R190, R200, R24, R26, R48, R56, R57, R74, R98, R115, R140, R141, R154, R177, R191: the soft reset instant of a
RESET_PENDING executor whose response has left; any other changes only device time (log 2). The device is in CONFIG
and the channel, the passes, the trackers and the self-test buffers are as after power-on; the link states, the fail
flags and last outcomes, the day/night state, the ambient, the backlight, the previous output starts and the output
frame numbers are kept. The fault manager keeps its enables and takes RESET_SEEN and the standing conditions alone,
with one record each where enabled. The tables keep their live banks, generations, locks, contents and scrubber
position; no CORRUPT kind is cured and no entry leaves the corruption list. The remaining words of a sync copy are
copied; with no sync copy in progress and no error in the words that the reset latches, the whole table store
stands. Each silent timer is armed with the timeout, and each current origin set to the default, of the live bank
when its kind is usable, and of the fallback otherwise. Model's choices: that the instant is taken when the response
queue of that link is empty, and that the reset's latches come before the fault manager's own reset (log 14); that
the latched limits, reactions, output timing and policy are kept, and that a display without a previous output start
keeps its next one (log 12). -/
def Obligations.SoftResetInstantResetsTheBlocks : Prop :=
  (∀ (t : Time) (s : State),
    (∀ link, s.executor = .resetPending link → (s.unit link).channel.responses ≠ []) →
      exec (.softResetInstant t) s = .next (s.advance t)) ∧
  ∀ (t : Time) (link : Side) (s : State), s.executor = .resetPending link → (s.unit link).channel.responses = [] →
    let live := fun (k : Kind) (off : Nat) => s.tables.word k (s.tables.kind k).live off
    let noSync := ∀ k, (s.tables.kind k).sync = none
    let clean := (live .timing 2).errors = 0 ∧ ∀ off, off ∈ [0, 8, 16, 24] → (live .view off).errors = 0
    ∃ s', exec (.softResetInstant t) s = .next s' ∧
      (let live' := fun (k : Kind) (off : Nat) => s'.tables.word k (s'.tables.kind k).live off
      s'.clock = (s.advance t).clock ∧ s'.clearing = s.clearing ∧ s'.pending = s.pending ∧ s'.mode = .config ∧
      s'.skew = none ∧ s'.latestStartL = none ∧ s'.executor = .idle ∧ s'.lastServed = .right ∧
      (∀ side,
        let u := s.unit side
        let u' := s'.unit side
        u'.ingest =
          { link := u.ingest.link, frame := none, expected := none, lastSignature := none, identicalRun := 0,
            prevStart := none, lastPeriod := none, lastActive := none, patternPending := false, slotHeld := false,
            silentDue := u'.ingest.silentDue
            sentRequests :=
              if u.ingest.patternPending = true ∧ u.ingest.link = .locked then u.ingest.sentRequests ++ [false]
              else u.ingest.sentRequests } ∧
        u'.ingest.silentDue.isSome = true ∧
        (s.tables.sound ∨ (noSync ∧ clean) →
          u'.ingest.silentDue =
            some (s'.clock +
              1000 * if s'.tables.usable .timing then bits (live' .timing 2).data 0 10 else 200)) ∧
        u'.pass = .idle ∧ u'.glare = {} ∧ u'.buffer = {} ∧
        u'.channel = { receiver := .waitLen, timeoutMs := 20, queue := [], responses := [], discards := 0 } ∧
        u'.sequencer = { u.sequencer with run := none } ∧
        u'.light = { u.light with force := .auto, phase := .idle } ∧
        u'.composer =
          { u.composer with
            timing := .free, inWindow := 0, pendingEnd := none, period := none, completion := none
            nextOut :=
              match u.composer.prevOut with
              | some p => p + u.composer.latched.nominal
              | none => u.composer.nextOut }) ∧
      (∀ v,
        let u := s.view v
        let u' := s'.view v
        { u' with ring := u.ring, originX := u.originX, originY := u.originY } =
            { u with state := .notReady, recovery := 0, latency := none } ∧
          u'.ring.statuses = [.free, .free, .free] ∧ u'.ring.superseded = 0) ∧
      s'.faults.enables = s.faults.enables ∧ s'.faults.holdOff = none ∧ s'.faults.lost = 0 ∧
      (∀ d, inSet s'.faults.conditions d =
        match d with
        | .cam side .linkLost => (s.unit side).ingest.link == .noSignal
        | .disp side .telemetryLost => !(s.unit side).light.known
        | .disp side .displayReported => (s.unit side).light.status != 0
        | .core .tableDed => !s'.tables.corruptions.isEmpty
        | _ => false) ∧
      (∀ d, inSet s'.faults.flags d =
        ((d == .core .resetSeen || inSet s'.faults.conditions d) && inSet s.faults.enables d)) ∧
      (let camera := fun side : Side =>
        if (s.unit side).ingest.link = .noSignal then [((.cam side .linkLost : Descriptor), ([] : List Word))] else []
      let display := fun side : Side =>
        let l := (s.unit side).light
        (if l.known then [] else [((.disp side .telemetryLost : Descriptor), ([] : List Word))]) ++
          if l.status = 0 then [] else [(.disp side .displayReported, [l.status.zeroExtend 32])]
      let tables : List (Descriptor × List Word) :=
        match s'.tables.corruptions with
        | [] => []
        | (k, off) :: _ => [(.core .tableDed, [BitVec.ofNat 32 k.code, BitVec.ofNat 32 off])]
      let occurrences := (.core .resetSeen, [2]) ::
        (camera .left ++ camera .right ++ display .left ++ display .right ++ tables)
      let records := occurrences.filter fun e => inSet s.faults.enables e.1
      s'.faults.log =
          (records.zipIdx.map fun e => (⟨BitVec.ofNat 16 e.2, s'.now, e.1.1, e.1.2, 0⟩ : FaultRecord)) ∧
        s'.faults.nextSequence = BitVec.ofNat 16 records.length) ∧
      (∀ d : Descriptor, s'.faults.pulses[d.index.val]'d.index.isLt =
        if d = .core .resetSeen then some (s'.clock + 500000) else none) ∧
      (∀ k,
        s'.tables.kind k = { s.tables.kind k with sync := none, corrupt := (s'.tables.kind k).corrupt } ∧
          ((s.tables.kind k).corrupt = true → (s'.tables.kind k).corrupt = true) ∧
          ((s.tables.kind k).sync = none → k ≠ .timing → k ≠ .view → s'.tables.kind k = s.tables.kind k)) ∧
      s.tables.corruptions <+: s'.tables.corruptions ∧
      s'.tables.scrubPosition = s.tables.scrubPosition ∧ s'.tables.scrubDue = s.tables.scrubDue ∧
      (noSync → clean → s'.tables = s.tables) ∧
      (s.tables.sound → ∀ k off, off < k.size →
        (live' k off).data = (live k off).data ∧
        (s'.tables.word k (s.tables.kind k).live.other off).data =
          match (s.tables.kind k).sync with
          | none => (s.tables.word k (s.tables.kind k).live.other off).data
          | some c =>
            if off < c.next then (s.tables.word k (s.tables.kind k).live.other off).data
            else if (live k off).errors < 2 then (live k off).data
            else (live k off).asRead) ∧
      (s.tables.sound ∨ (noSync ∧ clean) → ∀ v,
        let w := (live' .view (8 * v.index)).data
        ((s'.view v).originX, (s'.view v).originY) =
          if s'.tables.usable .view then (bits w 0 11, bits w 16 11) else (0, if v.isMain then 0 else 848)))

/-! ### The camera link -/

/-- R2, R11, R18, R152: a loss of lock in LOCKED. The link is in NO_SIGNAL with LINK_LOST active and no frame in
reception, the tracker is cleared, no pattern and no slot request stands, CI-L's latest stamp is empty, and a run in
progress has the flag of LINK set (R152); ingest's histories stand, and the other side's blocks too. A frame in
reception is first aborted with NO_END, after the report of LINK_LOST, or dropped silently when it was discarded (R18,
AnAbortEndsTheFrame). Without one, a held slot request is granted at once (R11), and the step of the run in progress
is acted on by the table of R152; nothing else changes. Model's readings: the order of the latches and reports (log
8), and that a step whose pass was abandoned asks for a slot again (log 9). In NO_SIGNAL the step changes only device
time (log 2). -/
def Obligations.LinkLostEndsReception : Prop :=
  ∀ (t : Time) (side : Side) (s : State),
    let s0 := s.advance t
    let done := exec (.linkLost t side) s
    ((s.unit side).ingest.link = .noSignal → exec (.linkLost t side) s = .next (s.advance t)) ∧
    ((s.unit side).ingest.link = .locked → ∀ f, (s.unit side).ingest.frame = some f →
      (f.treatment = .stalled ∨ f.treatment = .unexpected →
        done = exec (.linkLost t side) (s0.modIngest side fun i => { i with frame := none })) ∧
      (f.treatment ≠ .stalled → f.treatment ≠ .unexpected →
        done = exec (.linkLost t side) ((s0.activate (.cam side .linkLost) []).abortFrame side f .noEnd))) ∧
    ((s.unit side).ingest.link = .locked → (s.unit side).ingest.frame = none →
      let s1 := s0.activate (.cam side .linkLost) []
      let s2 : State :=
        { s1 with
          faults := { s1.faults with conditions := withoutD s1.faults.conditions (.cam side .glareOverload) }
          latestStartL := match side with
            | .left => none
            | .right => s.latestStartL }
      let s3 := s2.modUnit side fun u =>
        { u with
          ingest := { u.ingest with link := .noSignal, patternPending := false, slotHeld := false }
          glare :=
            { u.glare with
              tracks := Vector.replicate 6 {}, candidates := [], zones := [], hotTotal := 0, running := false } }
      let s4 := if (s.unit side).ingest.slotHeld then s3.beginImmediate side else s3
      let s5 := s4.modSequencer side fun q =>
        { q with
          failFlags := { q.failFlags with link := true }
          run := q.run.map fun x => { x with failures := { x.failures with link := true } } }
      done =
        .next (match (s.unit side).sequencer.run with
          | none => s4
          | some r =>
            match r.step with
            | .link => s5.settle side .fail
            | .ident | .pattern => s5.settle side .omitted
            | .develop | .store => s5.reaskSlot side)) ∧
    ((s.unit side).ingest.link = .locked →
      ∃ s', exec (.linkLost t side) s = .next s' ∧
        s'.clock = (s.advance t).clock ∧ s'.mode = s.mode ∧ s'.skew = s.skew ∧ s'.pending = s.pending ∧
        s'.executor = s.executor ∧ s'.lastServed = s.lastServed ∧ s'.clearing = s.clearing ∧
        s'.unit side.other = s.unit side.other ∧
        s'.latestStartL = (match side with | .left => none | .right => s.latestStartL) ∧
        inSet s'.faults.conditions (.cam side .linkLost) = true ∧
        inSet s'.faults.conditions (.cam side .glareOverload) = false ∧
        (s'.unit side).ingest =
          { (s.unit side).ingest with
            link := .noSignal, frame := none, patternPending := false, slotHeld := false } ∧
        (s'.unit side).glare =
          { (s.unit side).glare with
            tracks := Vector.replicate 6 {}, candidates := [], zones := [], hotTotal := 0, running := false } ∧
        (s'.unit side).composer = (s.unit side).composer ∧ (s'.unit side).light = (s.unit side).light ∧
        (s'.unit side).channel = (s.unit side).channel ∧
        ((s.unit side).sequencer.run.isSome = true → (s'.unit side).sequencer.failFlags.link = true) ∧
        ((s.unit side).sequencer.run = none → (s'.unit side).sequencer = (s.unit side).sequencer))

/-- R3, R97: lock in NO_SIGNAL is a camera path restart. The expected counter, the last signature, the previous
stamp and the last period are emptied, the identical-run count is 0, LINK_LOST, COUNTER_STALL, FROZEN and
GLARE_OVERLOAD are inactive and the tracker is cleared; nothing else changes. In LOCKED the step changes only
device time (log 2). -/
def Obligations.LinkLockRestartsTheCameraPath : Prop :=
  ∀ (t : Time) (side : Side) (s : State),
    ((s.unit side).ingest.link = .locked → exec (.linkLock t side) s = .next (s.advance t)) ∧
    ((s.unit side).ingest.link = .noSignal →
      ∃ conditions : BitVec 51,
        (∀ d, inSet conditions d =
          (inSet s.faults.conditions d &&
            !(d == .cam side .linkLost || d == .cam side .counterStall || d == .cam side .frozen ||
              d == .cam side .glareOverload))) ∧
        exec (.linkLock t side) s =
          .next ({ s.advance t with faults := { s.faults with conditions := conditions } }.modUnit side fun u =>
            { u with
              ingest :=
                { u.ingest with
                  link := .locked, expected := none, lastSignature := none, identicalRun := 0, prevStart := none
                  lastPeriod := none }
              glare :=
                { u.glare with
                  tracks := Vector.replicate 6 {}, candidates := [], zones := [], hotTotal := 0
                  running := false } }))

/-- R5, R6, R18, R21, R23, R24, R71, R73, R146: a frame start in LOCKED. A frame in reception is first aborted with
NO_END, or dropped silently when it was discarded (AnAbortEndsTheFrame). A new frame record stands, with its stamp,
UNDECIDED, developed when the mode is RUN, and the signature at 0xFFFF; the stamp is the previous frame start stamp;
the period is the difference to the one before it, and PERIOD follows the latched window; SILENT is inactive and the
silent timer armed with the latched timeout; camera R's frame start measures the skew against camera L's latest stamp,
and it is absent when there is none. The frame latches its values from the live profile and TIMING banks, or the
fallback (R6). The measured period reaches the output composer: its in-window count, the entry to TRACKING at the
fourth in-window period in FREE with the latched mode TRACK, and the return to FREE at a period outside the displays'
window (R71 to R73). A PATTERN step counts the start and fails at the fourth (R146). In NO_SIGNAL the step changes
only device time (R2). -/
def Obligations.FrameStartBeginsAFrame : Prop :=
  ∀ (t : Time) (side : Side) (s : State),
    let s0 := s.advance t
    ((s.unit side).ingest.link = .noSignal → exec (.frameStart t side) s = .next (s.advance t)) ∧
    ((s.unit side).ingest.link = .locked → ∀ f, (s.unit side).ingest.frame = some f →
      (f.treatment = .stalled ∨ f.treatment = .unexpected →
        exec (.frameStart t side) s =
          exec (.frameStart t side) (s0.modIngest side fun i => { i with frame := none })) ∧
      (f.treatment ≠ .stalled → f.treatment ≠ .unexpected →
        exec (.frameStart t side) s = exec (.frameStart t side) (s0.abortFrame side f .noEnd))) ∧
    ((s.unit side).ingest.link = .locked →
      ∃ s' f, exec (.frameStart t side) s = .next s' ∧
        s'.clock = (s.advance t).clock ∧ s'.now = t ∧ s'.mode = s.mode ∧ s'.executor = s.executor ∧
        s'.pending = s.pending ∧ s'.unit side.other = s.unit side.other ∧
        (s'.unit side).ingest.frame = some f ∧
        (match side with
          | .left => s'.latestStartL = some t ∧ s'.skew = s.skew
          | .right =>
            s'.latestStartL = s.latestStartL ∧
            s'.skew = s.latestStartL.map fun l => if t - l = 0xFFFFFFFF#32 then 0xFFFFFFFE#32 else t - l) ∧
        (f.start = t ∧ f.treatment = .undecided ∧ (f.developed = true ↔ s.mode = .run) ∧ f.counter = none ∧
          f.cameraId = none ∧ f.nextLine = 0 ∧ f.concealed = 0 ∧ f.signature = 0xFFFF) ∧
        (s'.unit side).ingest.link = .locked ∧
        (s'.unit side).ingest.expected = (s.unit side).ingest.expected ∧
        (s'.unit side).ingest.lastSignature = (s.unit side).ingest.lastSignature ∧
        (s'.unit side).ingest.identicalRun = (s.unit side).ingest.identicalRun ∧
        (s'.unit side).ingest.lastActive = (s.unit side).ingest.lastActive ∧
        (s'.unit side).ingest.prevStart = some t ∧
        (s'.unit side).ingest.silentDue = some (s'.clock + f.timing.silentMs * 1000) ∧
        inSet s'.faults.conditions (.cam side .silent) = false ∧
        (match (s.unit side).ingest.prevStart with
          | none =>
            (s'.unit side).ingest.lastPeriod = (s.unit side).ingest.lastPeriod ∧
            inSet s'.faults.conditions (.cam side .period) = inSet s.faults.conditions (.cam side .period)
          | some p =>
            (s'.unit side).ingest.lastPeriod =
              some (if t - p = 0xFFFFFFFF#32 then 0xFFFFFFFE#32 else t - p) ∧
            (inSet s'.faults.conditions (.cam side .period) = true ↔
              ((t - p).toNat < f.timing.periodMin ∨ f.timing.periodMax < (t - p).toNat))) ∧
        (match (s.latch side.profileKind [0, 1]).1 with
          | some ws =>
            f.profile =
              ⟨BitVec.ofNat 16 (bits (wordAt ws 0) 0 16), (wordAt ws 0).getLsbD 16, bits (wordAt ws 1) 0 6,
                bits (wordAt ws 1) 8 6⟩
          | none => f.profile.idCheck = false ∧ f.profile.frozenCount = 8 ∧ f.profile.lineErrorLimit = 8) ∧
        f.timing =
          (match (s.latch .timing [0, 1, 2]).1 with
          | some ws => ⟨bits (wordAt ws 0) 0 18, bits (wordAt ws 1) 0 18, bits (wordAt ws 2) 0 10⟩
          | none => ⟨10000, 40000, 200⟩) ∧
        (let c := (s.unit side).composer
        let c' := (s'.unit side).composer
        let count := min (c.inWindow + 1) 4
        match (s.unit side).ingest.prevStart with
        | none => c' = c
        | some p =>
          if 15000 ≤ (t - p).toNat ∧ (t - p).toNat ≤ 20000 then
            if count = 4 ∧ c.timing = .free ∧ c.latched.track = true then
              c' =
                { c with
                  inWindow := 4, timing := .tracking
                  nextOut := match c.prevOut, c.pendingEnd with
                    | some o, some e =>
                      if max (e + c.latched.lead) (o + 15000) ≤ o + 20000 then max (e + c.latched.lead) (o + 15000)
                      else o + 20000
                    | some o, none => o + 20000
                    | none, _ => c.nextOut }
            else c' = { c with inWindow := count }
          else if c.timing = .tracking then
            c' =
              { c with
                inWindow := 0, timing := .free
                nextOut := match c.prevOut with
                  | some o => o + c.latched.nominal
                  | none => c.nextOut }
          else c' = { c with inWindow := 0 }) ∧
        (let q := (s.unit side).sequencer
        let q' := (s'.unit side).sequencer
        match q.run with
        | none => q' = q ∧ f.slotEligible = (s.unit side).ingest.slotHeld
        | some r =>
          if r.step = .pattern then
            if r.startsSeen = 3 then
              q'.failFlags.pattern = true ∧ (∀ r', q'.run = some r' → r'.outcomes.pattern = some .fail) ∧
                (q'.run = none → q'.last.pattern = .fail)
            else q' = { q with run := some { r with startsSeen := r.startsSeen + 1 } }
          else q' = q) ∧
        (s'.unit side).light = (s.unit side).light ∧ (s'.unit side).glare = (s.unit side).glare ∧
        (s'.unit side).channel = (s.unit side).channel)

/-- R5, R27, R28, R50: the frame start of a developed frame puts the core into CAMERA with fresh working copies
(WrongLinesAbortTheFrame says what they hold) and empty statistics, and one FREE buffer of each ring of the side
into FILLING, with the capture time of the frame and no counter; the READY and SHOWN buffers stand. Stated for rings
that have a FREE buffer when the step begins and no FILLING one. -/
def Obligations.DevelopedFrameStartFillsABufferOfEachRing : Prop :=
  ∀ (t : Time) (side : Side) (s : State), (s.unit side).ingest.link = .locked → s.mode = .run →
    (s.unit side).ingest.frame = none →
    ((s.unit side).main.ring.has .free = true ∧ (s.unit side).main.ring.has .filling = false) →
    ((s.unit side).wide.ring.has .free = true ∧ (s.unit side).wide.ring.has .filling = false) →
    ∃ s' p, exec (.frameStart t side) s = .next s' ∧ (s'.unit side).pass = .camera p ∧
      p = { copies := (s.latchCopies side).1, hotCounts := List.replicate 600 0, samples := [], older := [], newer := [] } ∧
      ∀ v : View, v.side = side →
        ((s'.view v).ring.statuses.count .filling = 1 ∧
          (s'.view v).ring.find .ready = (s.view v).ring.find .ready ∧
          (s'.view v).ring.find .shown = (s.view v).ring.find .shown ∧
          (∃ b r, (s'.view v).ring.find .filling = some b ∧ b.record = some r ∧ r.capture = t ∧ r.counter = none ∧
            r.curveUsed = p.copies.curveUsed ∧ r.zoneCount = p.copies.zones.length ∧
            r.toneGeneration = p.copies.toneGeneration) ∧
          (s'.view v).state = (s.view v).state ∧ (s'.view v).recovery = (s.view v).recovery)

/-- R7 to R13, R27, R46, R50, R61: a check-good embedded line of an UNDECIDED frame. It sets the frame's camera ID
and counter and makes line 1 the next; CAMERA_ID and CAMERA_REPORTED follow it; a repeated counter makes the frame
STALLED, with COUNTER_STALL active; another counter advances the expected one, with COUNTER_SKIP for missing frames,
and the frame becomes PATTERN or UNEXPECTED, SLOT, or ACCEPTED. A discarded or consumed frame leaves no FILLING
buffer, a discarded one makes the recovery counts 0, and an accepted developed one has its counter in the FILLING
buffers. The pass that followed a discarded or PATTERN frame is abandoned; a SLOT frame begins a PACED reference
pass with the camera pass's profile and windows, the DAY curve of its TONE reading, no zones, signature 0xFFFF and
no image. Without a camera pass, which no run from power-on meets, it latches the copies afresh (log 18). -/
def Obligations.EmbeddedLineSettlesTheFrame : Prop :=
  ∀ (t : Time) (side : Side) (codes : List Code) (f : FrameRecord) (s : State),
    (s.unit side).ingest.link = .locked → (s.unit side).ingest.frame = some f → f.treatment = .undecided →
    let byte := fun i => (codes.getD i 0).truncate 8
    let counter := byte 2
    let i := (s.unit side).ingest
    let treatment : Treatment :=
      if i.expected = some (counter + 1) then .stalled
      else if (byte 3).getLsbD 0 then (if i.patternPending then .pattern else .unexpected)
      else if i.slotHeld = true ∧ f.slotEligible = true then .slot
      else .accepted
    let skipped := treatment ≠ .stalled ∧ i.expected ≠ none ∧ i.expected ≠ some counter
    let consumed := treatment = .pattern ∨ treatment = .slot
    let discarded := treatment = .stalled ∨ treatment = .unexpected
    ∃ s', exec (.embeddedLine t side true codes) s = .next s' ∧
      { s' with left := s.left, right := s.right, faults := s.faults, tables := s.tables } = s.advance t ∧
      (treatment ≠ .slot ∨ (∃ p, (s.unit side).pass = .camera p) → s'.tables = s.tables) ∧
      s'.unit side.other = s.unit side.other ∧
      (s'.unit side).ingest =
        { i with
          frame :=
            some { f with
              cameraId := some (byte 0 ++ byte 1), counter := some counter, nextLine := 1, treatment := treatment }
          expected := if treatment = .stalled then i.expected else some (counter + 1)
          slotHeld := i.slotHeld && !(treatment == .slot) } ∧
      (inSet s'.faults.conditions (.cam side .cameraId) = true ↔
        f.profile.idCheck = true ∧ byte 0 ++ byte 1 ≠ f.profile.expectedId) ∧
      (inSet s'.faults.conditions (.cam side .cameraReported) = true ↔ byte 4 ≠ 0) ∧
      inSet s'.faults.conditions (.cam side .counterStall) =
        (inSet s.faults.conditions (.cam side .counterStall) || treatment == .stalled) ∧
      (skipped → s'.faults.pulses[(Descriptor.cam side .counterSkip).index.val]'(Descriptor.index _).isLt =
        some (s'.clock + 500000)) ∧
      (treatment = .unexpected →
        s'.faults.pulses[(Descriptor.cam side .frameAbort).index.val]'(Descriptor.index _).isLt =
          some (s'.clock + 500000)) ∧
      (consumed ∨ discarded → ∀ v : View, v.side = side → (s'.view v).ring.has .filling = false) ∧
      (∀ v : View, v.side = side →
        (s'.view v).state = (s.view v).state ∧
        (s'.view v).recovery = (if discarded then 0 else (s.view v).recovery) ∧
        (treatment = .accepted →
          (s'.view v).ring = (s.view v).ring.onStatus .filling fun b =>
            { b with record := b.record.map fun r => { r with counter := some counter } })) ∧
      (treatment = .accepted → (s'.unit side).pass = (s.unit side).pass) ∧
      (treatment = .slot →
        let copies :=
          match (s.unit side).pass with
          | .camera p => p.copies
          | _ => ((s.advance t).latchCopies side).1
        (s'.unit side).pass =
          .reference
            { copies := { copies with curve := copies.dayCurve, zones := [] }
              pacing := .paced, signature := 0xFFFF, image := [] }) ∧
      (discarded ∨ treatment = .pattern →
        (s'.unit side).pass =
          match (s.unit side).pass with
          | .idle | .camera _ => .idle
          | .reference p =>
            match p.pacing with
            | .paced => .idle
            | .immediate _ => .reference p) ∧
      (s'.unit side).glare = (s.unit side).glare ∧ (s'.unit side).light = (s.unit side).light ∧
      (s'.unit side).composer = (s.unit side).composer ∧ (s'.unit side).channel = (s.unit side).channel ∧
      (s'.unit side).sequencer = (s.unit side).sequencer

/-- R7, R11, R13, R14, R16, R28 to R31, R45, R46, R148: a line or a frame end that does not fit ends the frame by an
abort with its reason (AnAbortEndsTheFrame), a discarded frame ignores its lines and ends silently, and without a
frame, or in NO_SIGNAL (R2), nothing is taken. A frame end before the last line is SHORT, a line after it LONG, a
wrong index OUT_OF_ORDER, and a check-bad embedded line LINE_ERRORS. After an abort, a DEVELOP step, or a STORE step
that has no image yet, whose pass was abandoned asks for a slot again (R148; the moment is the model's reading, log
9): a slot asked for in IDLE is granted at once and an IMMEDIATE pass begins with fresh working copies, the DAY
curve and no zones; in RECEIVING it is held, and the frame in reception is not taken. The working copies are the
words of the live profile, TONE, VIEW and GLARE banks, with the side's current origins, its day/night state and its
zone list, and the fallback contents of a kind that is not usable or shows a double error (R28 to R31, R45). -/
def Obligations.WrongLinesAbortTheFrame : Prop :=
  (∀ (side : Side) (s : State),
    s.beginImmediate side =
        (s.latchCopies side).2.setPass side
          (.reference
            { copies := { (s.latchCopies side).1 with curve := (s.latchCopies side).1.dayCurve, zones := [] }
              pacing := .immediate s.clock, signature := 0xFFFF, image := [] }) ∧
      ((s.unit side).ingest.frame = none → s.askSlot side = s.beginImmediate side) ∧
      (∀ f, (s.unit side).ingest.frame = some f →
        s.askSlot side =
          s.modIngest side fun i => { i with slotHeld := true, frame := some { f with slotEligible := false } }) ∧
      (∀ r, (s.unit side).sequencer.run = some r → r.step = .develop ∨ r.step = .store → r.timerDue ≠ none →
        (∀ p, (s.unit side).pass ≠ .reference p) → (s.unit side).ingest.slotHeld = false →
          s.reaskSlot side = s.askSlot side) ∧
      ((∀ r, (s.unit side).sequencer.run = some r →
          (r.step ≠ .develop ∧ r.step ≠ .store) ∨ r.timerDue = none ∨ (∃ p, (s.unit side).pass = .reference p) ∨
            (s.unit side).ingest.slotHeld = true) →
        s.reaskSlot side = s)) ∧
  (∀ (side : Side) (s : State),
    let w := (s.latchCopies side).1
    let read := fun k : Kind => (s.latch k (List.range k.size)).1
    let curve := fun c : Nat =>
      match read .tone with
      | some ws => (List.range 33).map fun i => (bits (wordAt ws (33 * c + i)) 0 20, bits (wordAt ws (33 * c + i)) 20 10)
      | none => ((List.range 32).map fun i => (32768 * i, 32 * i)) ++ [(1048575, 1023)]
    let window := fun v : View =>
      match read .view with
      | some ws =>
        (⟨bits (wordAt ws (8 * v.index + 3)) 0 6, (s.view v).originX, (s.view v).originY,
          (wordAt ws (8 * v.index + 3)).getLsbD 8⟩ : Window)
      | none => ⟨48, 0, if v.isMain then 0 else 848, true⟩
    w.profile =
        (match read (match side with | .left => .cameraL | .right => .cameraR) with
        | some ws =>
          let field := fun off lo n : Nat => bits (wordAt ws off) lo n
          { c1 := field 2 0 12, c2 := field 2 16 12, c3 := field 3 0 12, g0 := field 4 0 4, g1 := field 4 8 4
            g2 := field 4 16 4, g3 := field 4 24 4, black := field 5 0 12, gainR := field 6 0 10, gainG := field 7 0 10
            gainB := field 8 0 10 }
        | none =>
          { c1 := 1024, c2 := 2048, c3 := 3072, g0 := 0, g1 := 0, g2 := 0, g3 := 0, black := 0, gainR := 256
            gainG := 256, gainB := 256 }) ∧
      w.curve = curve (2 * side.code + if (s.unit side).light.dayNight = .night then 1 else 0) ∧
      w.dayCurve = curve (2 * side.code) ∧
      w.curveUsed =
        (if read .tone = none then .fallback else if (s.unit side).light.dayNight = .night then .night else .day) ∧
      w.toneGeneration = (if read .tone = none then 0 else (s.tables.kind .tone).generation) ∧
      w.mainWindow = window (match side with | .left => .leftMain | .right => .rightMain) ∧
      w.wideWindow = window (match side with | .left => .leftWide | .right => .rightWide) ∧
      w.glare =
        (match read .glare with
        | some ws =>
          ⟨bits (wordAt ws (2 + side.code)) 0 20, bits (wordAt ws (4 + side.code)) 0 6, bits (wordAt ws 6) 0 20,
            bits (wordAt ws 7) 0 13⟩
        | none => ⟨262144, 16, 786432, 1024⟩) ∧
      w.zones = (s.unit side).glare.zones) ∧
  (∀ (t : Time) (side : Side) (index : Nat) (good : Bool) (codes : List Code) (s : State), index ≠ 0 →
    let s0 := s.advance t
    let first := exec (.embeddedLine t side good codes) s
    let line := exec (.activeLine t side index good codes) s
    let frameEnd := exec (.frameEnd t side) s
    ((s.unit side).ingest.link = .noSignal ∨ (s.unit side).ingest.frame = none →
      first = .next s0 ∧ line = .next s0 ∧ frameEnd = .next s0) ∧
    (∀ f, (s.unit side).ingest.frame = some f → (s.unit side).ingest.link = .locked →
      (f.treatment = .undecided → good = false → first = .next ((s0.abortFrame side f .lineErrors).reaskSlot side)) ∧
      (f.treatment = .undecided →
        line = .next ((s0.abortFrame side f .outOfOrder).reaskSlot side) ∧ (f.nextLine ≠ 1281 →
          frameEnd = .next ((s0.abortFrame side f .short).reaskSlot side))) ∧
      (f.treatment = .stalled ∨ f.treatment = .unexpected →
        first = .next s0 ∧ line = .next s0 ∧
          frameEnd = .next (s0.modIngest side fun i => { i with frame := none })) ∧
      (f.treatment = .accepted ∨ f.treatment = .pattern ∨ f.treatment = .slot →
        (f.nextLine = 1281 →
          first = .next ((s0.abortFrame side f .long).reaskSlot side) ∧
            line = .next ((s0.abortFrame side f .long).reaskSlot side)) ∧
        (f.nextLine ≠ 1281 →
          (f.nextLine ≠ 0 → first = .next ((s0.abortFrame side f .outOfOrder).reaskSlot side)) ∧
          (f.nextLine ≠ index → line = .next ((s0.abortFrame side f .outOfOrder).reaskSlot side)) ∧
          frameEnd = .next ((s0.abortFrame side f .short).reaskSlot side)))))

/-- R18, R15, R52, R61: an abort raises FRAME_ABORT with its reason, and LINE_CRC with the concealed count when
lines were concealed; no buffer of the side stays FILLING, both recovery counts are 0, the pass that followed the
frame is IDLE, and the frame record is gone. Nothing else changes. -/
def Obligations.AnAbortEndsTheFrame : Prop :=
  ∀ (side : Side) (f : FrameRecord) (reason : AbortReason) (s : State),
    let code : Word :=
      match reason with
      | .noEnd => 1
      | .lineErrors => 2
      | .outOfOrder => 3
      | .short => 4
      | .long => 5
      | .unexpectedPattern => 6
    let s1 := s.raise (.cam side .frameAbort) [code]
    let s2 := if f.concealed = 0 then s1 else s1.raise (.cam side .lineCrc) [BitVec.ofNat 32 f.concealed]
    let freed := fun u : ViewUnit =>
      { u with
        recovery := 0
        ring := u.ring.onStatus .filling fun b => { b with status := .free, record := none } }
    s.abortFrame side f reason =
      s2.modUnit side fun u =>
        { u with
          ingest := { u.ingest with frame := none }
          main := freed u.main, wide := freed u.wide
          pass :=
            match u.pass with
            | .idle => .idle
            | .camera _ => .idle
            | .reference p =>
              match p.pacing with
              | .paced => .idle
              | .immediate _ => .reference p }

/-- R14, R15, R19, R27, R34, R41 to R43, R47: a line with the expected index is taken. The next line rises by one; a
check-bad line is replaced by the line before as it was passed on, or by zero codes as line 1, and counted; a frame
whose count exceeds the latched limit is aborted with LINE_ERRORS. For ACCEPTED and PATTERN frames the signature takes
the sample points of the line as passed on. Of an accepted developed frame the core develops the rows that the line
makes final: row y − 1, and at the last line row y too. They go into the hot counts of their cells, the samples of the
scene level, and the FILLING buffers whose next region row takes them. For a SLOT frame a PACED reference pass
develops row y of the reference frame, into the develop signature and the MAIN-view image. Nothing else changes. A
window that leaves the frame gives black (log 18). -/
def Obligations.ActiveLineIsTakenOrConcealed : Prop :=
  ∀ (t : Time) (side : Side) (index : Nat) (good : Bool) (codes : List Code) (f : FrameRecord) (s : State),
    (s.unit side).ingest.link = .locked → (s.unit side).ingest.frame = some f → index ≠ 0 → f.nextLine = index →
    index ≤ 1280 → f.treatment = .accepted ∨ f.treatment = .pattern ∨ f.treatment = .slot →
    let passed := if good then codes else if index = 1 then List.replicate 1920 0 else f.lastLine
    let concealed := if good then f.concealed else f.concealed + 1
    let signature :=
      if f.treatment ≠ .slot ∧ (index - 1) % 64 = 32 then
        ((List.range 30).map fun cx => (passed.getD (32 + 64 * cx) 0)).foldl
          (fun crc code => crcByte (crcByte crc (BitVec.ofNat 8 (code.toNat / 256))) (BitVec.ofNat 8 code.toNat))
          f.signature
      else f.signature
    let f' := { f with nextLine := index + 1, concealed := concealed, signature := signature, lastLine := passed }
    let s0 := s.advance t
    let y := index - 1
    let rows := (if y = 0 then [] else [y - 1]) ++ (if y = 1279 then [1279] else [])
    let developed := fun (p : CameraPass) (x k : Nat) =>
      let line := passed.map (sampleOf p.copies.profile)
      developPixel p.copies
        (fun i j => (if j = y then line else if j + 1 = y then p.newer else p.older).getD i 0) x k
    let column := fun (w : Window) (u : Nat) => w.x0 + (if w.flip then 1279 - u else u) * w.scale / 32
    let region := fun (w : Window) (pixel : Nat → Developed) =>
      (List.range 1280).map fun u => if column w u < 1920 then (pixel (column w u)).out else ⟨0, 0, 0⟩
    let counted := fun (p : CameraPass) (counts : List Nat) (k : Nat) =>
      counts.mapIdx fun i n =>
        if i / 30 = k / 64 then
          n + (List.range 64).countP fun d =>
            decide (p.copies.glare.hot ≤ (developed p (64 * (i % 30) + d) k).luma)
        else n
    let filled := fun (p : CameraPass) (w : Window) (height : Nat) (u : ViewUnit) =>
      { u with
        ring := u.ring.onStatus .filling fun b =>
          { b with
            picture := rows.foldl
              (fun picture k =>
                if picture.length < height ∧ w.y0 + picture.length * w.scale / 32 = k then
                  picture ++ [region w fun x => developed p x k]
                else picture)
              b.picture } }
    let reference := fun (p : ReferencePass) (x k : Nat) =>
      developPixel p.copies (fun i j => sampleOf p.copies.profile (BitVec.ofNat 12 ((i + 2 * j) % 4096))) x k
    let channels := fun c : Rgb =>
      [c.r.toNat, c.g.toNat, c.b.toNat].flatMap fun n => [BitVec.ofNat 8 (n / 256), BitVec.ofNat 8 n]
    let core := fun u : SideUnit =>
      match u.pass with
      | .idle => u
      | .camera p =>
        { u with
          pass :=
            .camera { p with
              hotCounts := rows.foldl (counted p) p.hotCounts
              samples := p.samples ++ rows.flatMap fun k =>
                if k % 64 = 32 then (List.range 30).map fun cx => (developed p (32 + 64 * cx) k).luma else []
              older := p.newer
              newer := passed.map (sampleOf p.copies.profile) }
          main := filled p p.copies.mainWindow 512 u.main
          wide := filled p p.copies.wideWindow 288 u.wide }
      | .reference p =>
        match p.pacing with
        | .immediate _ => u
        | .paced =>
          { u with
            pass :=
              .reference { p with
                signature :=
                  if y % 64 = 32 then
                    ((List.range 30).flatMap fun cx => channels (reference p (32 + 64 * cx) y).out).foldl crcByte
                      p.signature
                  else p.signature
                image :=
                  if p.image.length < 512 ∧
                      p.copies.mainWindow.y0 + p.image.length * p.copies.mainWindow.scale / 32 = y then
                    p.image ++ [(List.range 1280).map fun u => (reference p (column p.copies.mainWindow u) y).out]
                  else p.image } }
    (f.profile.lineErrorLimit < concealed →
      exec (.activeLine t side index good codes) s =
        .next ((s0.abortFrame side f' .lineErrors).reaskSlot side)) ∧
    (concealed ≤ f.profile.lineErrorLimit →
      exec (.activeLine t side index good codes) s =
        .next ((s0.modIngest side fun i => { i with frame := some f' }).modUnit side fun u =>
          if (f.treatment = .accepted ∧ f.developed = true) ∨ f.treatment = .slot then core u else u))

/-- R17, R20, R22, R42 to R44, R47, R49, R51, R60, R61, R69, R72, R75, R103, R144 to R146, R148, R149: the frame end
of a frame with all its 1280 lines is a completion. The frame record is gone, the active time is measured,
COUNTER_STALL is inactive, the completion restarts the hold timer and is the pending frame end, which sets the next
output start again in TRACKING; an accepted frame is compared with the last signature, and FROZEN follows the count;
an accepted developed frame's FILLING buffers become READY, with their pictures and records, and advance the
recovery counts, and the core publishes its hot-cell map and scene level to the tracker and then to the light
controller and leaves CAMERA. A completion passes LINK, and judges IDENT by the camera ID, PATTERN by the signature
of a counted frame, and DEVELOP by the signature of the PACED pass that ends with its slot frame; a STORE step that
waited for that pass keeps its image and has it written, behind the transfers that wait (log 21). Any other step
stands. Ingest's link, stamps, periods, expected counter and silent timer, the SHOWN buffers, and the views' states,
reactions, limits, regions, origins and latencies stand, and so do the other rings and recovery counts. Ingest's
requests and the self-test buffer stand when no run is in progress. -/
def Obligations.FrameEndCompletesTheFrame : Prop :=
  ∀ (t : Time) (side : Side) (f : FrameRecord) (s : State),
    (s.unit side).ingest.link = .locked → (s.unit side).ingest.frame = some f → f.nextLine = 1281 →
    f.treatment = .accepted ∨ f.treatment = .pattern ∨ f.treatment = .slot →
    let i := (s.unit side).ingest
    let same := i.lastSignature = some f.signature
    let run := if same then min (i.identicalRun + 1) 255 else 0
    let pictures := f.treatment = .accepted ∧ f.developed = true
    ∃ s', exec (.frameEnd t side) s = .next s' ∧
      { s' with left := s.left, right := s.right, faults := s.faults, tables := s.tables } = s.advance t ∧
      s'.unit side.other = s.unit side.other ∧
      (let i' := (s'.unit side).ingest
      { i' with patternPending := i.patternPending, slotHeld := i.slotHeld, sentRequests := i.sentRequests } =
          { i with
            frame := none
            lastActive := some (if t - f.start = 0xFFFFFFFF#32 then 0xFFFFFFFE#32 else t - f.start)
            lastSignature := if f.treatment = .accepted then some f.signature else i.lastSignature
            identicalRun := if f.treatment = .accepted then run else i.identicalRun } ∧
        ((s.unit side).sequencer.run = none →
          i'.patternPending = i.patternPending ∧ i'.slotHeld = i.slotHeld ∧ i'.sentRequests = i.sentRequests ∧
            (s'.unit side).buffer = (s.unit side).buffer)) ∧
      inSet s'.faults.conditions (.cam side .counterStall) = false ∧
      (f.treatment = .accepted →
        (inSet s'.faults.conditions (.cam side .frozen) = true ↔
          f.profile.frozenCount ≤ run + 1 ∨ (same ∧ inSet s.faults.conditions (.cam side .frozen) = true))) ∧
      (1 ≤ f.concealed →
        s'.faults.pulses[(Descriptor.cam side .lineCrc).index.val]'(Descriptor.index _).isLt =
          some (s'.clock + 500000)) ∧
      (let c := (s.unit side).composer
      (s'.unit side).composer =
        { c with
          completion := some t, pendingEnd := some s'.clock
          nextOut :=
            match c.timing, c.prevOut with
            | .tracking, some o =>
              if max (s'.clock + c.latched.lead) (o + 15000) ≤ o + 20000 then
                max (s'.clock + c.latched.lead) (o + 15000)
              else o + 20000
            | _, _ => c.nextOut }) ∧
      (∀ p, pictures → (s.unit side).pass = .camera p →
        let map := p.hotCounts.map fun n => decide (p.copies.glare.cellThreshold ≤ n)
        let cold := ((p.samples.zip map).filter fun e => !e.2).map fun e => e.1
        let scene := if cold = [] then 1048575 else cold.sum / cold.length
        (s'.unit side).glare = (((s.advance t).trackerCompletion side map).unit side).glare ∧
        (s'.unit side).light = (((s.advance t).lightCompletion side scene).unit side).light ∧
        (∀ p', (s'.unit side).pass ≠ .camera p') ∧
        ((s.unit side).sequencer.run = none → (s'.unit side).pass = .idle)) ∧
      (¬(pictures ∧ ∃ p, (s.unit side).pass = .camera p) →
        (s'.unit side).glare = (s.unit side).glare ∧ (s'.unit side).light = (s.unit side).light) ∧
      (let q := (s.unit side).sequencer
      let q' := (s'.unit side).sequencer
      let ended : Option ReferencePass :=
        match f.treatment, (s.unit side).pass with
        | .slot, .reference p => if p.pacing = .paced then some p else none
        | _, _ => none
      let verdict := fun (r : Run) (value : Option Half) =>
        if value = r.reference then StepOutcome.pass else StepOutcome.fail
      let judged : Run → Option StepOutcome := fun r =>
        match f.treatment, r.step with
        | .accepted, .link => some .pass
        | .accepted, .ident => some (verdict r f.cameraId)
        | .pattern, .pattern =>
          if r.startsSeen = 0 then none
          else if r.startsSeen ≤ 3 then some (verdict r (some f.signature)) else some .fail
        | .slot, .develop =>
          if r.timerDue.isSome then ended.map fun p => verdict r (some p.signature) else none
        | _, _ => none
      match q.run with
      | none => q' = q ∧ (ended.isSome = true → (s'.unit side).pass = .idle)
      | some r =>
        match judged r with
        | some o =>
          (∀ r', q'.run = some r' →
            r'.step ∈ laterSteps r.step ∧ r'.selection = r.selection ∧ r'.outcomes.get r.step = some o) ∧
          (q'.run = none → q'.last.get r.step = o)
        | none =>
          match r.step, ended with
          | .store, some p =>
            if r.timerDue.isSome then
              q' = { q with run := some { r with image := some p.image, timerDue := none } } ∧
                (s'.unit side).buffer.transfers = (s.unit side).buffer.transfers ++ [.write p.image true] ∧
                (s'.unit side).pass = .idle
            else q' = q
          | _, _ => q' = q) ∧
      (∀ v : View, v.side = side →
        { s'.view v with ring := (s.view v).ring, recovery := (s.view v).recovery } = s.view v ∧
        (s'.view v).ring.find .shown = (s.view v).ring.find .shown ∧
        (pictures ∧ (s.view v).ring.has .filling = true →
          (s'.view v).ring.find .ready =
            ((s.view v).ring.find .filling).map (fun b => { b with status := .ready }) ∧
          (s'.view v).ring.has .filling = false ∧
          (s'.view v).recovery =
            (if (s.view v).reaction = .degrade then (s.view v).recovery else min ((s.view v).recovery + 1) 255) ∧
          (s'.view v).ring.superseded =
            (if (s.view v).ring.has .ready then min ((s.view v).ring.superseded + 1) 65535
             else (s.view v).ring.superseded)) ∧
        (¬(pictures ∧ (s.view v).ring.has .filling = true) →
          (s'.view v).ring = (s.view v).ring ∧ (s'.view v).recovery = (s.view v).recovery)) ∧
      (s'.unit side).channel = (s.unit side).channel

/-! ### Timers -/

/-- R24, R101, R121, R129, R21, R60: a timer whose instant has come runs out. The silent timer makes SILENT active;
the ambient timer makes the ambient not known, stale from now on, and TELEMETRY_LOST active; a pulse ends; the
hold-off timer stops. A stamp that has stood 2^31 µs is emptied. Nothing else changes, and a timer whose instant has
not come, or that is not running, stays (log 2). -/
def Obligations.TimersRunOut : Prop :=
  ∀ (t : Time) (side : Side) (d : Descriptor) (s : State),
    let s0 := s.advance t
    let ran := fun due : Option Nat => ∃ n, due = some n ∧ n ≤ s0.clock
    let pulse := s.faults.pulses[d.index.val]'d.index.isLt
    let kept := fun stamp : Option Time => stamp.filter fun p => decide ((t - p).toNat < 2147483648)
    let stamped := s0.modIngest side fun i => { i with prevStart := kept i.prevStart }
    (ran (s.unit side).ingest.silentDue →
      exec (.silentTimerExpiry t side) s =
        .next ((s0.modIngest side fun i => { i with silentDue := none }).activate (.cam side .silent) [])) ∧
    (¬ ran (s.unit side).ingest.silentDue → exec (.silentTimerExpiry t side) s = .next s0) ∧
    (ran (s.unit side).light.ambientDue →
      exec (.ambientTimerExpiry t side) s =
        .next ((s0.modLight side fun l =>
          { l with known := false, ambientDue := none, stale := some s0.clock, holdPassed := false }).activate
            (.disp side .telemetryLost) [])) ∧
    (¬ ran (s.unit side).light.ambientDue → exec (.ambientTimerExpiry t side) s = .next s0) ∧
    (ran pulse →
      exec (.pulseExpiry t d) s =
        .next { s0 with
          faults := { s.faults with pulses := s.faults.pulses.set d.index.val none d.index.isLt } }) ∧
    (¬ ran pulse → exec (.pulseExpiry t d) s = .next s0) ∧
    (ran s.faults.holdOff →
      exec (.holdOffExpiry t) s = .next { s0 with faults := { s.faults with holdOff := none } }) ∧
    (¬ ran s.faults.holdOff → exec (.holdOffExpiry t) s = .next s0) ∧
    exec (.frameStartStampExpiry t side) s =
      .next (match side with
        | .left => { stamped with latestStartL := kept s.latestStartL }
        | .right => stamped) ∧
    exec (.completionStampExpiry t side) s =
      .next (s0.modComposer side fun c => { c with completion := kept c.completion })

/-! ### Reports to the fault manager -/

/-- R119, R121, R123, R136: what a report does to the fault manager. A *became active* report that finds the copy
inactive, and every *happened* report, is an occurrence. An occurrence with the enable set and the flag clear sets
the flag and appends a record with the device time, the next sequence number and the pending lost count, or is
refused and counted when the log holds 32; any other occurrence changes no flag and no record. -/
def Obligations.ReportsReachTheFaultManager : Prop :=
  ∀ (d : Descriptor) (detail : List Word) (s : State),
    let fm := s.faults
    let occurrence := fun before after : FaultManager =>
      after.enables = before.enables ∧ after.conditions = before.conditions ∧ after.pulses = before.pulses ∧
      after.holdOff = before.holdOff ∧
      (if inSet before.enables d = true ∧ inSet before.flags d = false then
        (∀ e, inSet after.flags e = (inSet before.flags e || e == d)) ∧
        (if before.log.length < 32 then
          after.log = before.log ++ [⟨before.nextSequence, BitVec.ofNat 32 s.clock, d, detail, before.lost⟩] ∧
            after.nextSequence = before.nextSequence + 1 ∧ after.lost = 0
        else
          after.log = before.log ∧ after.nextSequence = before.nextSequence ∧ after.lost = min (before.lost + 1) 255)
      else
        after.flags = before.flags ∧ after.log = before.log ∧ after.nextSequence = before.nextSequence ∧
          after.lost = before.lost)
    (inSet fm.conditions d = true → s.activate d detail = s) ∧
    (inSet fm.conditions d = false →
      ∃ c after, (∀ e, inSet c e = (inSet fm.conditions e || e == d)) ∧
        occurrence { fm with conditions := c } after ∧ s.activate d detail = { s with faults := after }) ∧
    (∃ c, (∀ e, inSet c e = (inSet fm.conditions e && e != d)) ∧
      s.deactivate d = { s with faults := { fm with conditions := c } }) ∧
    (∃ after,
      occurrence
        { fm with pulses := fm.pulses.set d.index.val (some (s.clock + 500000)) d.index.isLt } after ∧
      s.raise d detail = { s with faults := after })

/-! ### DDR transfers of the views -/

/-- R54, R55, R66, R67: a failed region write frees the view's FILLING buffer and raises DDR_ERROR with WRITE; without
a FILLING buffer nothing changes (log 2). A region read in progress that completes makes the region show the picture;
one that fails makes it show the LOST display and raises DDR_ERROR with READ. Nothing else changes, and a view whose
region is not being read takes no read end (log 2). The regions of an output frame (R66, R67): MAIN fills rows 0 to
511 and WIDE rows 512 to 799; NOTREADY is grey 512; the LOST display is grey 128 with the camera-unavailable tile at
its centre; a picture has the warning tile at its top right corner when it warns. -/
def Obligations.DdrTransfersOfTheViewsEnd : Prop :=
  ∀ (t : Time) (v : View) (s : State),
    let s0 := s.advance t
    ((s.view v).ring.has .filling = true →
      exec (.ddrWriteFail t v) s =
        .next ((s0.modView v fun u =>
          { u with
            ring := u.ring.onStatus .filling fun b => { b with status := .free, record := none } }).raise
              (.view v .ddrError) [2])) ∧
    ((s.view v).ring.has .filling = false → exec (.ddrWriteFail t v) s = .next s0) ∧
    (∀ p warn, (s.view v).region = some (.reading p warn) →
      exec (.regionReadDone t v true) s = .next (s0.modView v fun u => { u with region := some (.shows p warn) }) ∧
      exec (.regionReadDone t v false) s =
        .next ((s0.modView v fun u => { u with region := some .lost }).raise (.view v .ddrError) [1])) ∧
    ((∀ p warn, (s.view v).region ≠ some (.reading p warn)) →
      ∀ ok, exec (.regionReadDone t v ok) s = .next s0) ∧
    (∀ u w, w < v.rows →
      let grey := fun n : Nat => (⟨BitVec.ofNat 10 n, BitVec.ofNat 10 n, BitVec.ofNat 10 n⟩ : Rgb)
      let top := if v.isMain then 224 else 112
      let unavailable := fun i j : Nat =>
        let d : Int := (i : Int) - j
        let e : Int := (i : Int) + j - 63
        if (i ≤ 3 ∨ 60 ≤ i ∨ j ≤ 3 ∨ 60 ≤ j) ∨ (-2 ≤ d ∧ d ≤ 2) ∨ (-2 ≤ e ∧ e ≤ 2) then grey 1023 else grey 0
      let warning := fun i j : Nat =>
        if (28 ≤ i ∧ i ≤ 35) ∧ ((8 ≤ j ∧ j ≤ 43) ∨ (50 ≤ j ∧ j ≤ 57)) then grey 0 else (⟨1023, 768, 0⟩ : Rgb)
      outputPixel s v.side u (if v.isMain then w else 512 + w) =
        match (s.view v).region with
        | none => none
        | some .grey => some (grey 512)
        | some .lost =>
          some (if (608 ≤ u ∧ u ≤ 671) ∧ top ≤ w ∧ w ≤ top + 63 then unavailable (u - 608) (w - top) else grey 128)
        | some (.reading _ _) => none
        | some (.shows p warn) =>
          some (if warn = true ∧ (1216 ≤ u ∧ u ≤ 1279) ∧ w ≤ 63 then warning (u - 1216) w
            else (p.getD w []).getD u ⟨0, 0, 0⟩))

/-! ### Self-test steps -/

/-- R47, R148, R149: an IMMEDIATE reference pass ends 12,000 µs after it began. The core is IDLE again; a DEVELOP
step that asked for the pass keeps the image and passes when the develop signature equals its reference; a STORE
step keeps the image, stops its timer and asks for the write of the self-test buffer, behind those that wait (log
21); without such a step nothing else changes. Before that instant, and in any other pass, only device time moves on
(log 2). -/
def Obligations.AnImmediateReferencePassIsJudged : Prop :=
  ∀ (t : Time) (side : Side) (s : State),
    let s0 := s.advance t
    let done := exec (.referencePassEnd t side) s
    let idle := s0.setPass side .idle
    (∀ p began, (s.unit side).pass = .reference p → p.pacing = .immediate began →
      (s0.clock < began + 12000 → done = .next s0) ∧
      (began + 12000 ≤ s0.clock →
        ((s.unit side).sequencer.run = none → done = .next idle) ∧
        (∀ r, (s.unit side).sequencer.run = some r →
          ((r.step = .develop ∨ r.step = .store) ∧ r.timerDue.isSome = true →
            done =
              .next (if r.step = .develop then
                (idle.modRun side fun x => { x with image := some p.takeAll.image }).settle side
                  (if some p.takeAll.signature = r.reference then .pass else .fail)
              else
                (idle.modRun side fun x => { x with image := some p.takeAll.image, timerDue := none }).modBuffer side
                  fun b => { b with transfers := b.transfers ++ [.write p.takeAll.image true] })) ∧
          (¬((r.step = .develop ∨ r.step = .store) ∧ r.timerDue.isSome = true) → done = .next idle)))) ∧
    ((∀ p began, (s.unit side).pass = .reference p → p.pacing ≠ .immediate began) → done = .next s0)

/-- R4, R143 to R151: a step in progress is settled, as by the running-out of its timer (R144 to R149), which fails
it. A FAIL sets the step's fail flag, and no flag of an earlier step changes; no request, slot or reference pass of
the step stands at the end of the run. Either the run goes on, in a later selected step, with the step's outcome and
its selection kept; or it has ended, with the outcome in the last-run outcomes. The later steps are looked at in
order: an unselected one is passed over; IDENT and PATTERN after a failure of LINK, STORE after one of DEVELOP, and
IDENT, PATTERN and DEVELOP with a profile that is not usable are OMITTED; LINK and PATTERN fail at once in
NO_SIGNAL; any other step begins, with its reference latched and its timer armed for 200 ms: PATTERN sends wanted =
yes, DEVELOP asks for a slot, and STORE has the run's image written, behind the transfers that wait (log 21), or
without one asks for a slot. When none remains, the run ends with outcomes and its reports. A timer that is not due
changes nothing (log 2). -/
def Obligations.ASettledStepHandsOver : Prop :=
  (∀ (side : Side) (s : State) (r : Run) (o : StepOutcome), (s.unit side).sequencer.run = some r →
    s.settle side o =
      (s.modUnit side fun u =>
        { u with
          ingest :=
            { u.ingest with
              slotHeld := false
              patternPending := if r.step = .pattern then false else u.ingest.patternPending
              sentRequests :=
                if r.step = .pattern ∧ u.ingest.patternPending = true ∧ u.ingest.link = .locked then
                  u.ingest.sentRequests ++ [false]
                else u.ingest.sentRequests }
          pass :=
            match u.pass with
            | .reference _ => .idle
            | p => p
          sequencer :=
            { u.sequencer with
              failFlags := if o = .fail then u.sequencer.failFlags.set r.step true else u.sequencer.failFlags
              run := some
                { r with
                  outcomes := r.outcomes.set r.step (some o), timerDue := none
                  failures := if o = .fail then r.failures.set r.step true else r.failures } } }).beginNext side
        (laterSteps r.step)) ∧
  (∀ (side : Side) (s : State), s.endRun side = s.runEnded side ∧ s.beginNext side [] = s.runEnded side) ∧
  (∀ (side : Side) (s : State) (r : Run) (st : Step) (rest : List Step), (s.unit side).sequencer.run = some r →
    let go := s.beginNext side (st :: rest)
    let profile := fun off => s.latch side.profileKind [off]
    let half := fun (ws : List (Nat × Word)) (off lo : Nat) => some (BitVec.ofNat 16 (bits (wordAt ws off) lo 16))
    let limit := some (s.clock + 200000)
    let skip := fun (s1 : State) (o : StepOutcome) =>
      (s1.modSequencer side fun q =>
        { q with
          failFlags := if o = .fail then q.failFlags.set st true else q.failFlags
          run := q.run.map fun x =>
            { x with
              outcomes := x.outcomes.set st (some o)
              failures := if o = .fail then x.failures.set st true else x.failures } }).beginNext side rest
    let enter := fun (s1 : State) (due : Option Nat) (reference : Option Half) =>
      s1.modSequencer side fun q =>
        { q with
          run := q.run.map fun x =>
            { x with step := st, timerDue := due, startsSeen := 0, reference := reference, writeSig := none } }
    (r.selection.get st = false → go = s.beginNext side rest) ∧
    (r.selection.get st = true →
      match st with
      | .link => go = if (s.unit side).ingest.link = .noSignal then skip s .fail else enter s limit none
      | .ident =>
        go =
          if r.failures.link then skip s .omitted
          else
            match profile 0 with
            | (none, s1) => skip s1 .omitted
            | (some ws, s1) => enter s1 limit (half ws 0 0)
      | .pattern =>
        go =
          if r.failures.link then skip s .omitted
          else
            match profile 9 with
            | (none, s1) => skip s1 .omitted
            | (some ws, s1) =>
              if (s.unit side).ingest.link = .noSignal then skip s1 .fail
              else
                enter
                  (s1.modIngest side fun i =>
                    { i with patternPending := true, sentRequests := i.sentRequests ++ [true] })
                  limit (half ws 9 0)
      | .develop =>
        go =
          match profile 9 with
          | (none, s1) => skip s1 .omitted
          | (some ws, s1) => (enter s1 limit (half ws 9 16)).askSlot side
      | .store =>
        go =
          if r.failures.develop then skip s .omitted
          else
            match r.image with
            | some p => (enter s none none).modBuffer side fun b => { b with transfers := b.transfers ++ [.write p true] }
            | none => (enter s limit none).askSlot side)) ∧
  (∀ (t : Time) (side : Side) (s : State) (r : Run) (o : StepOutcome), (s.unit side).sequencer.run = some r →
    let s0 := s.advance t
    let s' := s.settle side o
    let q := (s.unit side).sequencer
    let q' := (s'.unit side).sequencer
    (∀ st, st ∉ laterSteps r.step →
      q'.failFlags.get st = (q.failFlags.get st || (decide (st = r.step) && decide (o = .fail)))) ∧
    (∀ st, q.failFlags.get st = true → q'.failFlags.get st = true) ∧
    (∀ r', q'.run = some r' →
      r'.step ∈ laterSteps r.step ∧ r'.selection = r.selection ∧ r.selection.get r'.step = true ∧
        r'.outcomes.get r.step = some o ∧ q'.last = q.last) ∧
    (q'.run = none →
      q'.last.get r.step = o ∧ (s'.unit side).ingest.patternPending = false ∧
        (s'.unit side).ingest.slotHeld = false ∧ (s'.unit side).pass.isReference = false) ∧
    ((∀ st, st ∈ laterSteps r.step → r.selection.get st = false) → q'.run = none) ∧
    s'.unit side.other = s.unit side.other ∧ s'.clock = s.clock ∧ s'.mode = s.mode ∧
    (s'.unit side).channel = (s.unit side).channel ∧ (s'.unit side).light = (s.unit side).light ∧
    (s'.unit side).glare = (s.unit side).glare ∧ (s'.unit side).composer = (s.unit side).composer ∧
    (∀ n, r.timerDue = some n → n ≤ s0.clock →
      exec (.selftestStepTimeout t side) s = .next (s0.settle side .fail)) ∧
    ((∀ n, r.timerDue = some n → s0.clock < n) → exec (.selftestStepTimeout t side) s = .next s0))

/-- R56, R149, R153: the write of the self-test buffer makes it WRITTEN with its image, or EMPTY when it fails; the
run that asked for it then keeps the write signature, the CRC-16 over the image's region sample positions, and asks
for the read-back, or its step fails. The read-back passes the step when it completes on a WRITTEN buffer and the
signature of the data read equals the write signature, and fails it otherwise. A transfer of an ended run does only
its part on the buffer. Model's choices: a step without such a transfer in progress changes nothing (log 2), waiting
transfers run first in, first out (log 21), and whether a transfer completes, and the data a read-back returns, are
operands (log 20). -/
def Obligations.StoreTransfersEnd : Prop :=
  ∀ (t : Time) (side : Side) (s : State),
    let s0 := s.advance t
    let buffer := (s.unit side).buffer
    let sample := fun (p : Picture) (i j : Nat) =>
      let c := (p.getD (64 * (2 * j + 1) / 5) []).getD (64 * (2 * i + 1) / 3) ⟨0, 0, 0⟩
      [BitVec.ofNat 8 (c.r.toNat / 256), BitVec.ofNat 8 c.r.toNat, BitVec.ofNat 8 (c.g.toNat / 256),
        BitVec.ofNat 8 c.g.toNat, BitVec.ofNat 8 (c.b.toNat / 256), BitVec.ofNat 8 c.b.toNat]
    let signature := fun p : Picture =>
      crc16 ((List.range 20).flatMap fun j => (List.range 30).flatMap fun i => sample p i j)
    (∀ image owned rest, buffer.transfers = .write image owned :: rest →
      exec (.storeWriteDone t side true) s =
        .next (if owned then
            (s0.modBuffer side fun _ => ⟨some image, rest ++ [.read true]⟩).modRun side fun r =>
              { r with writeSig := some (signature image) }
          else s0.modBuffer side fun _ => ⟨some image, rest⟩) ∧
      exec (.storeWriteDone t side false) s =
        .next (if owned then (s0.modBuffer side fun _ => ⟨none, rest⟩).settle side .fail
          else s0.modBuffer side fun _ => ⟨none, rest⟩)) ∧
    (∀ rest, buffer.transfers = .read false :: rest →
      ∀ data, exec (.storeReadDone t side data) s = .next (s0.modBuffer side fun b => { b with transfers := rest })) ∧
    (∀ rest r, buffer.transfers = .read true :: rest → (s.unit side).sequencer.run = some r →
      (∀ p, exec (.storeReadDone t side (some p)) s =
        .next ((s0.modBuffer side fun b => { b with transfers := rest }).settle side
          (if buffer.content ≠ none ∧ r.writeSig = some (signature p) then .pass else .fail))) ∧
      exec (.storeReadDone t side none) s =
        .next ((s0.modBuffer side fun b => { b with transfers := rest }).settle side .fail)) ∧
    ((∀ image owned rest, buffer.transfers ≠ .write image owned :: rest) →
      ∀ ok, exec (.storeWriteDone t side ok) s = .next s0) ∧
    ((∀ owned rest, buffer.transfers ≠ .read owned :: rest) →
      ∀ data, exec (.storeReadDone t side data) s = .next s0)

/-! ### The table RAM -/

/-- R156, R157, R160, R161, R172, R120: the layout of the table RAM, reading and latching. Each kind has its code,
its size and its place in both banks (R156). A word with a double error is refused, and in the live bank makes a
GOOD kind CORRUPT, at the tail of the corruption list, with TABLE_DED when the list was empty. A latch takes nothing
of a kind that is not usable; of a usable one it takes the corrected words, each single error written back and
reported, or nothing when one holds a double error, which makes the kind CORRUPT. Nothing else changes. A latch
reads no word twice. -/
def Obligations.LatchesReadTheLiveBank : Prop :=
  ∀ (k : Kind) (offs : List Nat) (s : State),
    let live := (s.tables.kind k).live
    [Kind.cameraL, .cameraR, .view, .tone, .glare, .light, .policy, .timing][k.code]? = some k ∧
    k.size = [16, 16, 32, 132, 24, 24, 18, 12].getD k.code 0 ∧
    (∀ b off,
      ramAddress k b off =
        [0, 16, 32, 64, 196, 220, 244, 262].getD k.code 0 + off + if b = .bankB then 274 else 0) ∧
    (s.tables.usable k = true ↔ (s.tables.kind k).generation ≠ 0 ∧ (s.tables.kind k).corrupt = false) ∧
    (s.tables.usable k = false → s.latch k offs = (none, s)) ∧
    (offs.Nodup → s.tables.usable k = true → s.tables.firstDouble k live offs = none →
      s.latch k offs = (some (s.tables.corrected k live offs), s.repaired k live offs)) ∧
    (∀ e, offs.Nodup → s.tables.usable k = true → s.tables.firstDouble k live offs = some e →
      ∃ before after, offs = before ++ e :: after ∧ s.tables.firstDouble k live before = none ∧
        s.latch k offs = (none, (s.repaired k live before).corruptKind k e)) ∧
    (∀ off, (s.tables.kind k).corrupt = true → s.corruptKind k off = s) ∧
    (∀ off, (s.tables.kind k).corrupt = false →
      let s1 : State :=
        { s with
          tables :=
            { s.tables.modKind k (fun r => { r with corrupt := true }) with
              corruptions := s.tables.corruptions ++ [(k, off)] } }
      s.corruptKind k off =
        if s.tables.corruptions = [] then
          s1.activate (.core .tableDed) [BitVec.ofNat 32 k.code, BitVec.ofNat 32 off]
        else s1)

/-- R168: the sync copy of a SYNCING kind copies the live word at its next offset in that word's microsecond, with
correction, into the shadow with fresh check bits; the data of a double error are copied as read, and the kind
becomes CORRUPT. The kind is OPEN after its last word. Earlier, or in a kind that is OPEN, nothing is copied (log 2);
nothing else changes. -/
def Obligations.SyncWordCopyCopiesOneWord : Prop :=
  ∀ (t : Time) (k : Kind) (s : State),
    let s0 := s.advance t
    let live := (s.tables.kind k).live
    let done := exec (.syncWordCopy t k) s
    ((s.tables.kind k).sync = none → done = .next s0) ∧
    (∀ c, (s.tables.kind k).sync = some c →
      let w := s.tables.word k live c.next
      let put := fun (s1 : State) (data : Word) =>
        { s1 with
          tables :=
            (s1.tables.writeWord k live.other c.next data).modKind k fun r =>
              { r with sync := if c.next + 1 < k.size then some { c with next := c.next + 1 } else none } }
      (s0.clock ≤ c.committed + c.next → done = .next s0) ∧
      (c.committed + c.next < s0.clock →
        (w.errors = 0 → done = .next (put s0 w.data)) ∧
        (w.errors = 1 → done = .next (put (s0.repaired k live [c.next]) w.data)) ∧
        (2 ≤ w.errors →
          done = .next (put (s0.corruptKind k c.next) (w.data ^^^ w.flips.truncate 32)))))

/-- R173, R174, R157, R161: a scrubber visit that is due reads the first live word at or after the position, going
round at 547, and the position becomes the address after it; a single error is corrected and reported, a double
error makes the kind CORRUPT, and the next visit is due 50 µs after this one. Disturbances that have come about are
the model's operand (log 5): each flips one stored bit, unless the word already has two wrong bits. A visit that is
not due reads nothing (log 2). What a disturbed word reads as is stated for a table RAM in its canonical form, which
every step keeps (EveryStepKeepsTheTablesSound). -/
def Obligations.ScrubberVisitReadsTheNextLiveWord : Prop :=
  (∀ (t : Time) (upsets : List Upset) (s : State) (due : Nat), s.tables.scrubDue = some due →
    s.tables.scrubPosition < 548 →
    let s1 := (s.advance t).disturbAll upsets
    let done := exec (.scrubVisit t upsets) s
    let address := fun (k : Kind) (off : Nat) => ramAddress k (s.tables.kind k).live off
    let distance := fun a : Nat => (a + 548 - s.tables.scrubPosition) % 548
    (s1.clock < due → done = .next s1) ∧
    (due ≤ s1.clock → ∀ (k : Kind) (off : Nat), off < k.size →
      (∀ k' off', off' < Kind.size k' → distance (address k off) ≤ distance (address k' off')) →
      let live := (s.tables.kind k).live
      let w := s1.tables.word k live off
      let s2 : State :=
        { s1 with
          tables :=
            { s1.tables with scrubPosition := (address k off + 1) % 548, scrubDue := some (due + 50) } }
      done =
        .next (if w.errors = 0 then s2
          else if w.errors = 1 then s2.repaired k live [off]
          else s2.corruptKind k off))) ∧
  (∀ (t : Time) (upsets : List Upset) (s : State), s.tables.scrubDue = none →
    exec (.scrubVisit t upsets) s = .next ((s.advance t).disturbAll upsets)) ∧
  (∀ (u : Upset) (s : State) (a : Nat), ramWf s.tables.ram = true →
    let w := ramRead s.tables.ram u.addr.val
    let w' : TableWord := { w with flips := w.flips ^^^ BitVec.twoPow 39 u.bit.val }
    { s.disturbAll [u] with tables := s.tables } = s ∧
    { (s.disturbAll [u]).tables with ram := s.tables.ram } = s.tables ∧
    ramRead (s.disturbAll [u]).tables.ram a =
      if a = u.addr.val ∧ w'.errors ≤ 2 then w' else ramRead s.tables.ram a)

/-! ### The command channel -/

/-- R180 to R183, R185, R176: a byte in WAIT_LEN is a LEN, or RETURN_FRAMING; in COLLECTING it joins the packet, and
the last byte of a packet makes the receiver wait again. A packet whose CRC differs raises RETURN_CRC; a command is
accepted at the tail of the queue when both limits hold, and otherwise counted and COMMAND_DISCARD raised. The packet
timer drops the bytes collected with RETURN_FRAMING. No byte is taken during the clearing. Nothing else changes.
Model's choice (log 2): a PACKET_TIMEOUT in WAIT_LEN, or before its instant, changes only device time. -/
def Obligations.TheReceiverTakesBytesAndPackets : Prop :=
  ∀ (t : Time) (link : Side) (b : Byte) (s : State),
    let s0 := s.advance t
    let l := (s.unit link).channel
    let put := fun r : Receiver => s0.modChannel link fun x => { x with receiver := r }
    let done := exec (.returnLaneByte t link b) s
    let timeout := exec (.packetTimeout t link) s
    (s.clearing = true → done = .next s0) ∧
    (l.receiver = .waitLen → timeout = .next s0) ∧
    (s.clearing = false → l.receiver = .waitLen →
      (4 ≤ b.toNat ∧ b.toNat ≤ 64 →
        done =
          .next (put (.collecting b.toNat []
            (if l.timeoutMs = 0 then none else some (s0.clock + l.timeoutMs * 1000))))) ∧
      (b.toNat < 4 ∨ 64 < b.toNat → done = .next (s0.raise (.disp link .returnFraming) [1]))) ∧
    (∀ len buffer due, l.receiver = .collecting len buffer due →
      (∀ n, due = some n → n ≤ s0.clock →
        timeout = .next ((put .waitLen).raise (.disp link .returnFraming) [2])) ∧
      ((∀ n, due = some n → s0.clock < n) → timeout = .next s0) ∧
      (s.clearing = false → buffer.length + 1 < len →
        done = .next (put (.collecting len (buffer ++ [b]) due)))) ∧
    (∀ (tag kind lo : Byte) (param : List Byte) (due : Option Nat), s.clearing = false → param.length ≤ 60 →
      l.receiver = .collecting (4 + param.length) (tag :: kind :: param ++ [lo]) due →
      let crc := crc16 (BitVec.ofNat 8 (4 + param.length) :: tag :: kind :: param)
      (crc ≠ b ++ lo → done = .next ((put .waitLen).raise (.disp link .returnCrc) [])) ∧
      (crc = b ++ lo → kind ≠ 0x70 →
        (l.queue.length < 4 ∧ l.queue.length + l.responses.length < 8 →
          done =
            .next ((put .waitLen).modChannel link fun x => { x with queue := x.queue ++ [⟨tag, kind, param⟩] })) ∧
        (¬(l.queue.length < 4 ∧ l.queue.length + l.responses.length < 8) →
          done =
            .next (((put .waitLen).modChannel link fun x => { x with discards := x.discards + 1 }).raise
              (.disp link .commandDiscard) []))))

/-- R100, R102, R184: the last byte of a telemetry packet with a PARAM of three bytes. The lux becomes the ambient
value, known and no longer stale, the status byte the latest one, and the ambient timer is armed with the timeout
latched from TIMING, or 500 ms; TELEMETRY_LOST ends, and DISPLAY_REPORTED is active exactly when the status is not
0. A PARAM of another length raises RETURN_FRAMING with LEN. No command queue changes. -/
def Obligations.TelemetrySetsTheAmbient : Prop :=
  ∀ (t : Time) (link : Side) (tag lo hi : Byte) (param : List Byte) (due : Option Nat) (s : State),
    s.clearing = false → param.length ≤ 60 →
    (s.unit link).channel.receiver = .collecting (4 + param.length) (tag :: 0x70 :: param ++ [lo]) due →
    crc16 (BitVec.ofNat 8 (4 + param.length) :: tag :: 0x70 :: param) = hi ++ lo →
    let s1 := (s.advance t).modChannel link fun x => { x with receiver := .waitLen }
    let done := exec (.returnLaneByte t link hi) s
    (param.length ≠ 3 → done = .next (s1.raise (.disp link .returnFraming) [1])) ∧
    (∀ x0 x1 status, param = [x0, x1, status] →
      let latched := s1.latch .timing [2]
      let ms :=
        match latched.1 with
        | some ws => bits (wordAt ws 2) 16 13
        | none => 500
      let s2 :=
        latched.2.modLight link fun l =>
          { l with
            ambient := (x1 ++ x0).toNat, known := true, stale := none, holdPassed := false
            ambientDue := some (s1.clock + ms * 1000), status := status }
      let s3 := s2.deactivate (.disp link .telemetryLost)
      done =
        .next (if status = 0 then s3.deactivate (.disp link .displayReported)
          else s3.activate (.disp link .displayReported) [status.zeroExtend 32]))

/-! ### The output frame start -/

/-- R59, R69, R70, R72, R73, R189: an output frame start that is due. Its time is the previous start and the output
period is measured; the pending frame end is emptied; the output timing is that of TIMING, or FREE at 16,667 µs when
it is not usable or its latch meets a double error (R59). TRACKING goes on exactly when it was the state, the start
followed a frame end in the displays' window, and the latched mode is TRACK; the next start is then due after 20,000
µs, and otherwise after the latched nominal period. Up to four responses leave, and the frame number rises by one.
The other side and the blocks that take no part stand. A start that is not due changes only device time (log 2). -/
def Obligations.OutputFrameStartSetsTheTiming : Prop :=
  ∀ (t : Time) (side : Side) (s : State),
    let s0 := s.advance t
    let c := (s.unit side).composer
    let word := fun i => s.tables.word .timing (s.tables.kind .timing).live (3 + 3 * side.code + i)
    (s0.clock < c.nextOut → exec (.outputFrameStart t side) s = .next s0) ∧
    (c.nextOut ≤ s0.clock →
      ∃ s', exec (.outputFrameStart t side) s = .next s' ∧
        (let c' := (s'.unit side).composer
        { s' with left := s.left, right := s.right, faults := s.faults, tables := s.tables } = s0 ∧
        s'.unit side.other = s.unit side.other ∧
        (s.tables.usable .timing = false ∨ (∃ i, i < 3 ∧ 2 ≤ (word i).errors) →
          c'.latched.track = false ∧ c'.latched.nominal = 16667) ∧
        (s.tables.usable .timing = true → (∀ i, i < 3 → (word i).errors < 2) →
          c'.latched = ⟨(word 0).data.getLsbD 0, bits (word 1).data 0 15, bits (word 2).data 0 14⟩) ∧
        c'.pendingEnd = none ∧ c'.prevOut = some s'.clock ∧ c'.inWindow = c.inWindow ∧
        c'.completion = c.completion ∧
        c'.period =
          (match c.prevOut with
          | none => c.period
          | some p =>
            let d := t - BitVec.ofNat 32 p
            some (if d = 0xFFFFFFFF#32 then 0xFFFFFFFE#32 else d)) ∧
        (c'.timing = .tracking ↔
          c.timing = .tracking ∧ c'.latched.track = true ∧
            ∃ p, c.prevOut = some p ∧ ∃ e, c.pendingEnd = some e ∧
              max (e + c.latched.lead) (p + 15000) ≤ p + 20000) ∧
        c'.nextOut = s'.clock + (if c'.timing = .tracking then 20000 else c'.latched.nominal) ∧
        c'.frameNumber = c.frameNumber + 1 ∧
        (s'.unit side).channel =
          { (s.unit side).channel with responses := (s.unit side).channel.responses.drop 4 } ∧
        (s'.unit side).ingest = (s.unit side).ingest ∧ (s'.unit side).pass = (s.unit side).pass ∧
        (s'.unit side).glare = (s.unit side).glare ∧ (s'.unit side).sequencer = (s.unit side).sequencer ∧
        (s'.unit side).buffer = (s.unit side).buffer))

/-- R53, R55, R59, R61 to R66, R68, R118, R134: the work of an output frame start on a view. The limits are those of
VIEW, or the fallback whole when it is not usable or its latch meets a double error; the reaction is computed from
the active set and the latched policy; a READY buffer becomes SHOWN and is a new buffer; the state follows the first
outcome of R62, the recovery of R63, or NOTREADY in CONFIG; the recovery count is 0 after DEGRADE or an entry to
LOST, which raises VIEW_LOST with cause DEGRADE 2, or HOLD 1 without DEGRADE, in its record; the latency is that of
the SHOWN picture, with LATENCY above the latched limit; and the region reads the picture, or shows the LOST or
NOTREADY display. -/
def Obligations.ViewsTurnAtAnOutputFrameStart : Prop :=
  ∀ (t : Time) (v : View) (s : State), (s.unit v.side).composer.nextOut ≤ (s.advance t).clock →
    let latched := ((((s.advance t).latchLimits v.side).latchPolicy v.side).latchOutputTiming v.side).2
    let u := s.view v
    let word := fun i => s.tables.word .view (s.tables.kind .view).live (8 * v.index + i)
    let newBuffer := u.ring.has .ready
    ∃ s', exec (.outputFrameStart t v.side) s = .next s' ∧
      (let u' := s'.view v
      let beyond : Bool :=
        match (s.unit v.side).composer.completion with
        | none => true
        | some c => decide (u'.limits.holdMs * 1000 < (t - c).toNat)
      let entered : Bool := decide (s.mode = .run) && u.state.showsPicture && decide (u'.state = .lost)
      u'.originX = u.originX ∧ u'.originY = u.originY ∧ u'.ring.superseded = u.ring.superseded ∧
      (s.tables.usable .view = false ∨
          (∃ off, off ∈ composerViewWords v.side ∧
            2 ≤ (s.tables.word .view (s.tables.kind .view).live off).errors) →
        u'.limits = ⟨100, 5, 100000⟩) ∧
      (s.tables.usable .view = true →
        (∀ off, off ∈ composerViewWords v.side →
          (s.tables.word .view (s.tables.kind .view).live off).errors < 2) →
        u'.limits = ⟨bits (word 4).data 0 9, bits (word 4).data 16 5, bits (word 5).data 0 18⟩) ∧
      u'.reaction = effectiveReaction latched.faults (latched.unit v.side).composer.policy v ∧
      (newBuffer = true →
        u'.ring.has .ready = false ∧
          u'.ring.find .shown = (u.ring.find .ready).map fun b => { b with status := .shown }) ∧
      (newBuffer = false → u'.ring = u.ring) ∧
      (s.mode = .config → u'.state = .notReady) ∧
      (s.mode = .run → u.state = .live ∨ u.state = .holding →
        u'.state =
          if u'.reaction = .degrade ∨ beyond = true then .lost else if newBuffer then .live else .holding) ∧
      (s.mode = .run → u.state = .lost →
        u'.state =
          if u'.limits.recoveryFrames ≤ u.recovery ∧ u'.reaction ≠ .degrade ∧ u'.ring.has .shown = true then .live
          else .lost) ∧
      u'.recovery = (if u'.reaction = .degrade ∨ entered = true then 0 else u.recovery) ∧
      s'.faults.pulses[(Descriptor.view v .viewLost).index.val]'(Descriptor.index _).isLt =
        (if entered then some (s'.clock + 500000)
          else s.faults.pulses[(Descriptor.view v .viewLost).index.val]'(Descriptor.index _).isLt) ∧
      (entered = true → inSet s.faults.enables (.view v .viewLost) = true →
        inSet s.faults.flags (.view v .viewLost) = false → s'.faults.log.length < 32 →
        ∃ r, r ∈ s'.faults.log.drop s.faults.log.length ∧ r.descriptor = .view v .viewLost ∧ r.time = t ∧
          r.detail = [if u'.reaction = .degrade then 2 else 1]) ∧
      (u'.state.showsPicture = false → u'.latency = none) ∧
      (u'.state.showsPicture = true → ∀ b, u'.ring.find .shown = some b →
        u'.latency = (b.record.map fun r => t - r.capture) ∧
        u'.region = some (.reading b.picture (decide (u'.reaction = .warn)))) ∧
      (inSet s'.faults.conditions (.view v .latency) =
        match u'.latency with
        | some l => decide (u'.limits.latencyLimit < l.toNat)
        | none => false) ∧
      (u'.state = .notReady → u'.region = some .grey) ∧ (u'.state = .lost → u'.region = some .lost))

/-- R192, R193, R194, R125, R130: the trailer that an output frame start captures, byte by byte, is that of the state
it leaves, with the frame number and the responses as it found them; it ends with its CRC, low byte first. Its
bytes lie in the G channel of rows 800 and 801, with 0 after the last. -/
def Obligations.TheTrailerIsASnapshot : Prop :=
  ∀ (t : Time) (side : Side) (s : State), (s.unit side).composer.nextOut ≤ (s.advance t).clock →
    ∃ s', exec (.outputFrameStart t side) s = .next s' ∧
      (let u := s'.unit side
      let fm := s'.faults
      let taken := (s.unit side).channel.responses.take 4
      let value := fun x : Option Word => bytes4 (x.getD 0xFFFFFFFF).toNat
      let any := fun lo n : Nat => if fm.flags.extractLsb' lo n = 0 then 0 else 1
      let block := fun x : ViewUnit =>
        [BitVec.ofNat 8 x.state.code, BitVec.ofNat 8 x.reaction.code] ++
          (match x.ring.find .shown with
          | some ⟨_, some r, _⟩ =>
            [1, r.counter.getD 0, BitVec.ofNat 8 r.curveUsed.code, BitVec.ofNat 8 r.zoneCount] ++ value x.latency ++
              bytes2 r.toneGeneration
          | some ⟨_, none, _⟩ => [1, 0, 0, 0] ++ value x.latency ++ [0, 0]
          | none => [0, 0, 0, 0] ++ value x.latency ++ [0, 0])
      let response := fun r : Response =>
        let body := BitVec.ofNat 8 (5 + r.param.length) :: r.tag :: r.kind :: r.status :: r.param
        body ++ bytes2 (crc16 body).toNat
      let body :=
        bytes2 (s.unit side).composer.frameNumber.toNat ++ bytes4 t.toNat ++
          [BitVec.ofNat 8 (s'.mode.code + if s'.executor.isResetPending then 2 else 0),
            BitVec.ofNat 8 (u.light.dayNight.code + 16 * u.light.force.code)] ++
          bytes2 u.light.backlight ++
          [if fm.holdOff = none ∧ fm.flags &&& fm.enables ≠ 0 then 1 else 0,
            BitVec.ofNat 8 (any 0 13 + 2 * any 13 13 + 4 * any 26 12 + 8 * any 38 5 + 16 * any 43 5 + 32 * any 48 3),
            u.channel.discards,
            BitVec.ofNat 8 ((allKinds.map fun k => if (s'.tables.kind k).corrupt then 2 ^ k.code else 0).sum)] ++
          allKinds.flatMap (fun k => bytes2 (s'.tables.kind k).generation) ++ block u.main ++ block u.wide ++
          value s'.left.ingest.lastPeriod ++ value s'.right.ingest.lastPeriod ++ value u.ingest.lastActive ++
          value s'.skew ++ value u.composer.period ++
          [BitVec.ofNat 8 u.composer.timing.code, BitVec.ofNat 8 taken.length] ++ taken.flatMap response
      u.composer.trailer = body ++ [(crc16 body).truncate 8, (crc16 body >>> 8).truncate 8] ∧
      ∀ x y, x < 1280 → y < 2 →
        outputPixel s' side x (800 + y) = some ⟨0, (u.composer.trailer.getD (1280 * y + x) 0).zeroExtend 10, 0⟩)

/-! ### Reactions and light -/

/-- R116, R117, R131 to R134, R178: the effective reaction of a view is the strongest of the reactions to the active
descriptors that concern it, and NONE without one. The reaction to a descriptor is that of the first entry of the
policy that matches it, where DEGRADE acts as WARN for VIEW_LOST, SELFTEST_DONE and SELFTEST_FAIL, and its kind's
default when no entry matches. An entry matches by source, by kind under its mask, and by view. A descriptor is active
while its condition copy or its pulse is. The sources, kind codes, views concerned and default reactions are those of
R116 and R117. At an output frame start the composer's policy is the valid entries of the live POLICY bank in index
order, or none when POLICY is not usable or a word of an entry holds a double error. -/
def Obligations.ReactionsFollowThePolicy : Prop :=
  (∀ (fm : FaultManager) (policy : List PolicyEntry) (v : View),
    let counts := fun d : Descriptor => fm.active d = true ∧ d.concerns v = true
    let strength := fun r : Reaction => match r with
      | .none => 0
      | .warn => 1
      | .degrade => 2
    (∀ d, counts d → strength (reactionTo policy d v) ≤ strength (effectiveReaction fm policy v)) ∧
    ((∃ d, counts d ∧ reactionTo policy d v = effectiveReaction fm policy v) ∨
      effectiveReaction fm policy v = .none) ∧
    (∀ d, (∀ e, e ∈ policy → e.hits d v = false) → reactionTo policy d v = d.defaultReaction) ∧
    (∀ d before e after, policy = before ++ e :: after → (∀ x, x ∈ before → PolicyEntry.hits x d v = false) →
      e.hits d v = true →
      reactionTo policy d v =
        if e.reaction = .degrade ∧ (d.kind = 0x11 ∨ d.kind = 0x0C ∨ d.kind = 0x0D) then .warn else e.reaction) ∧
    (∀ (e : PolicyEntry) d,
      e.hits d v = true ↔
        (e.source = none ∨ e.source = some d.source) ∧ d.kind &&& e.kindMask = e.kindValue &&& e.kindMask ∧
          (match e.select with
            | .main => v.isMain = true
            | .wide => v.isMain = false
            | .both => True)) ∧
    (∀ d, fm.active d = true ↔ inSet fm.conditions d = true ∨ fm.pulses[d.index.val]'d.index.isLt ≠ none)) ∧
  (∀ (d : Descriptor) (v : View),
    (d.concerns v = true ↔
      d.viewIndex = some v.index ∨
        (d.viewIndex = none ∧ (d.source = v.side.code ∨ d.source = 2 + v.side.code ∨ d.source = 4))) ∧
    d.defaultReaction =
      (if d.kind ∈ [0x01, 0x06, 0x07, 0x0A] then .degrade
      else if d.kind ∈ [0x04, 0x08, 0x09, 0x0B, 0x10, 0x20, 0x21, 0x31] then .warn
      else .none) ∧
    (match d with
      | .cam side k =>
        d.source = side.code ∧ d.viewIndex = none ∧
          ([CamKind.linkLost, .lineCrc, .frameAbort, .counterStall, .counterSkip, .frozen, .cameraId, .cameraReported,
            .period, .silent, .glareOverload, .selftestDone, .selftestFail])[d.kind - 1]? = some k ∧ 1 ≤ d.kind
      | .view w k =>
        d.source = w.side.code ∧ d.viewIndex = some w.index ∧
          ([ViewKind.latency, .viewLost, .ddrError])[d.kind - 0x10]? = some k ∧ 0x10 ≤ d.kind
      | .disp side k =>
        d.source = 2 + side.code ∧ d.viewIndex = none ∧
          ([DispKind.telemetryLost, .displayReported, .returnFraming, .returnCrc, .commandDiscard])[d.kind - 0x20]? =
            some k ∧ 0x20 ≤ d.kind
      | .core k =>
        d.source = 4 ∧ d.viewIndex = none ∧
          ([CoreKind.tableSec, .tableDed, .resetSeen])[d.kind - 0x30]? = some k ∧ 0x30 ≤ d.kind)) ∧
  (∀ (t : Time) (side : Side) (s : State), (s.unit side).composer.nextOut ≤ (s.advance t).clock →
    let word := fun e => s.tables.word .policy (s.tables.kind .policy).live (2 + e)
    let entry := fun e =>
      let w := (word e).data
      if w.getLsbD 0 = false then none
      else
        some
          { source := if bits w 4 3 = 7 then none else some (bits w 4 3)
            kindValue := bits w 8 6, kindMask := bits w 16 6
            select := if bits w 24 2 = 1 then .main else if bits w 24 2 = 2 then .wide else .both
            reaction := if bits w 28 2 = 0 then .none else if bits w 28 2 = 1 then .warn else .degrade : PolicyEntry }
    ∃ s', exec (.outputFrameStart t side) s = .next s' ∧
      (let clean := ∀ e, e < 16 → (word e).errors < 2
      let policy := (s'.unit side).composer.policy
      (s.tables.usable .policy = true → clean → policy = (List.range 16).filterMap entry) ∧
        (s.tables.usable .policy = false ∨ ¬ clean → policy = [])))

/-- R103 to R107, R111 to R114: the light controller. At a completion, with LIGHT usable and its four words without
errors, qualification moves by the table of R105 to R107 in AUTO, and the phase is IDLE otherwise, also when one of
those words holds a double error. At an output frame start that is due, the backlight moves by at most 8 toward its
target: 512 while LIGHT is not usable, or its latch meets a double error; the curve at a known ambient, the level
while the hold time runs, and the fallback level after it, all under the night cap in NIGHT. -/
def Obligations.TheLightControllerQualifiesAndDims : Prop :=
  ∀ (side : Side) (s : State),
    let word := fun i => (s.tables.word .light (s.tables.kind .light).live i).data
    let l := (s.unit side).light
    (∀ scene, s.tables.usable .light = false →
      s.lightCompletion side scene = s.modLight side fun x => { x with phase := .idle }) ∧
    (∀ scene, (∃ i, i < 4 ∧ 2 ≤ (s.tables.word .light (s.tables.kind .light).live i).errors) →
      ((s.lightCompletion side scene).unit side).light = { l with phase := .idle }) ∧
    (∀ scene, s.tables.usable .light = true →
      (∀ i, i < 4 → (s.tables.word .light (s.tables.kind .light).live i).errors = 0) →
      let holds : Bool :=
        match l.dayNight with
        | .day => (!l.known || decide (l.ambient < bits (word 0) 0 16)) && decide (scene < bits (word 1) 0 20)
        | .night => (l.known && decide (bits (word 0) 16 16 < l.ambient)) || decide (bits (word 2) 0 20 < scene)
      let turned := match l.dayNight with
        | .day => DayNight.night
        | .night => .day
      s.lightCompletion side scene = s.modLight side fun x =>
        if l.force ≠ .auto then { x with phase := .idle }
        else
          match l.phase with
          | .idle => if holds then { x with phase := .debouncing s.clock } else x
          | .debouncing start =>
            if s.clock < start + bits (word 3) 0 13 * 1000 then x
            else if holds then { x with phase := .validating s.clock } else { x with phase := .idle }
          | .validating start =>
            if holds = false then { x with phase := .idle }
            else if s.clock < start + bits (word 3) 16 14 * 1000 then x
            else { x with dayNight := turned, phase := .idle }) ∧
    (∀ t : Time, (s.unit side).composer.nextOut ≤ (s.advance t).clock →
      ∃ s', exec (.outputFrameStart t side) s = .next s' ∧
        (let l' := (s'.unit side).light
        { l' with backlight := l.backlight, holdPassed := l.holdPassed } = l ∧
        l'.backlight ≤ l.backlight + 8 ∧ l.backlight ≤ l'.backlight + 8 ∧
        (s.tables.usable .light = false ∨
            (∃ i, 4 ≤ i ∧ i ≤ 22 ∧ 2 ≤ (s.tables.word .light (s.tables.kind .light).live i).errors) →
          l'.backlight =
            if l.backlight < 512 then min 512 (l.backlight + 8) else max 512 (l.backlight - 8)) ∧
        (s.tables.usable .light = true →
          (∀ i, i < 24 → (s.tables.word .light (s.tables.kind .light).live i).errors < 2) →
          let cap := fun n => match l.dayNight with
            | .day => n
            | .night => min n (bits (word 4) 0 10)
          let curve := (List.range 17).map fun k => (bits (word (6 + k)) 0 16, bits (word (6 + k)) 16 10)
          let passed := l.holdPassed = true ∨ l.stale.getD 0 + bits (word 5) 0 13 * 1000 ≤ s'.clock
          let target :=
            cap (if l.known then interpolate curve l.ambient
              else if passed then bits (word 4) 16 10 else l.backlight)
          l'.backlight =
            (if l.backlight < target then min target (l.backlight + 8) else max target (l.backlight - 8)) ∧
          (l.known = false → (l'.holdPassed = true ↔ passed)))))

/-! ### The glare tracker -/

/-- R75 to R96: one completion of a tracker. The words it latches of GLARE, 0, 1 and 8 to 17, are the model's
reading (log 15, DEDUCED). Tracking runs with GLARE usable and without a double error, in RUN, in NIGHT and with the
side enabled; GLARE_OVERLOAD follows the hot cell total. Running, it replaces the candidates: the components of the
hot cells, largest first, the first eight kept. Pairs are matched greedily by distance, slot and index; a hit takes
the candidate's data and halves the velocity's sum with the motion, a miss carries position and box by the velocity,
and each unmatched candidate that is not oversize creates a track in the lowest FREE slot or is dropped. Stopped, it
lets its tracks go. Then each track takes one transition, when tracking runs, and one ramp step toward the target of
its state, and the zones of the dimming tracks are published. A completion keeps the tracker sound: attenuations in
16..256, and 256 for FREE and TENTATIVE tracks, distinct IDs, at most 8 candidates and 6 zones, each zone below 256.
So does every step, of both sides, while the target attenuation of a usable live GLARE bank lies in 16..255, as
EveryStepKeepsTheTablesSound keeps it. -/
def Obligations.ATrackerCompletionKeepsItsTracksSound : Prop :=
  (∀ (x : Track) (c : Candidate),
    let v := fun (old motion : Int) => max (-32) (min 31 ((old + motion).fdiv 2))
    x.hit c =
      { x with
        qx := c.qx, qy := c.qy, box := c.box, misses := 0, history := x.history <<< 1 ||| 1
        vx := v x.vx ((c.qx : Int) - x.qx), vy := v x.vy ((c.qy : Int) - x.qy) }) ∧
  (∀ x : Track,
    let into := fun (top : Int) (n : Int) => (max 0 (min top n)).toNat
    let qx := into 119 (x.qx + x.vx)
    let qy := into 79 (x.qy + x.vy)
    let sx : Int := (qx / 4 : Nat) - (x.qx / 4 : Nat)
    let sy : Int := (qy / 4 : Nat) - (x.qy / 4 : Nat)
    x.miss =
        { x with
          qx := qx, qy := qy, history := x.history <<< 1, misses := min (x.misses + 1) 255
          box := ⟨into 29 (x.box.x0 + sx), into 29 (x.box.x1 + sx), into 19 (x.box.y0 + sy), into 19 (x.box.y1 + sy)⟩ } ∧
      (x.box.x0 ≤ x.box.x1 → x.miss.box.x0 ≤ x.miss.box.x1 ∧ x.miss.box.x1 ≤ 29) ∧
      (x.box.y0 ≤ x.box.y1 → x.miss.box.y0 ≤ x.miss.box.y1 ∧ x.miss.box.y1 ≤ 19)) ∧
  (∀ (f : TrackerGlare) (x : Track),
    let hit := x.history.getLsbD 0
    let state :=
      match x.state with
      | .free => TrackState.free
      | .tentative =>
        if hit then (if f.confirmHits ≤ (List.range 8).countP x.history.getLsbD then .confirmed else .tentative)
        else if f.tentativeMiss ≤ x.misses then .free else .tentative
      | .confirmed => if hit then .confirmed else if f.coastLimit ≤ x.misses then .releasing else .coasting
      | .coasting => if hit then .confirmed else if f.coastLimit ≤ x.misses then .releasing else .coasting
      | .releasing => if hit then .confirmed else .releasing
    (x.transition f).state = state ∧ (state ≠ .free → x.transition f = { x with state := state })) ∧
  (∀ (f : TrackerGlare) (x : Track),
    let target := if x.state = .confirmed ∨ x.state = .coasting then f.target else 256
    let a :=
      if target < x.attenuation then max target (x.attenuation - f.slewDown)
      else if x.attenuation < target then min target (x.attenuation + f.slewUp)
      else x.attenuation
    (x.state = .free → x.ramp f = x) ∧ (x.state = .releasing → a = 256 → x.ramp f = {}) ∧
      (x.state ≠ .free → x.state ≠ .releasing ∨ a ≠ 256 →
        x.ramp f = { x with target := target, attenuation := a })) ∧
  (∀ (margin : Nat) (x : Track), x.box.x0 ≤ x.box.x1 → x.box.x1 ≤ 29 → x.box.y0 ≤ x.box.y1 → x.box.y1 ≤ 19 →
    let z := zoneOf margin x
    z.x0 = 64 * (x.box.x0 - margin) ∧ z.x1 + 1 = 64 * (min 29 (x.box.x1 + margin) + 1) ∧
      z.y0 = 64 * (x.box.y0 - margin) ∧ z.y1 + 1 = 64 * (min 19 (x.box.y1 + margin) + 1) ∧
      z.x0 ≤ z.x1 ∧ z.x1 ≤ 1919 ∧ z.y0 ≤ z.y1 ∧ z.y1 ≤ 1279 ∧ z.attenuation = x.attenuation) ∧
  (∀ (g : Glare) (overload : Bool) (c : Candidate),
    let free := fun j : Fin 6 => g.tracks[j.val].state = .free
    let held := fun id : Byte => ∃ j : Fin 6, ¬ free j ∧ g.tracks[j.val].id = id
    (c.oversize = true → g.createTrack overload c = g) ∧
      (c.oversize = false → overload = true ∨ (∀ j, ¬ free j) →
        g.createTrack overload c = { g with droppedCandidates := min (g.droppedCandidates + 1) 255 }) ∧
      (∀ i : Fin 6, c.oversize = false → overload = false → free i → (∀ j, j < i → ¬ free j) →
        ∃ n : Nat, n < 6 ∧ ¬ held (g.idCounter + BitVec.ofNat 8 n) ∧
          (∀ m : Nat, m < n → held (g.idCounter + BitVec.ofNat 8 m)) ∧
          g.createTrack overload c =
            { g with
              idCounter := g.idCounter + BitVec.ofNat 8 n + 1
              tracks := g.tracks.set i.val
                { state := .tentative, id := g.idCounter + BitVec.ofNat 8 n, qx := c.qx, qy := c.qy, vx := 0, vy := 0
                  box := c.box, history := 1, misses := 0, attenuation := 256, target := 256 } })) ∧
  (∀ (g : Glare) (f : TrackerGlare) (overload : Bool) (map : List Bool),
    let dims := fun x : Track =>
      decide (x.state = .confirmed ∨ x.state = .coasting ∨ x.state = .releasing) && decide (x.attenuation < 256)
    let letGo : Track → Track := fun x =>
      match x.state with
      | .tentative => {}
      | .confirmed | .coasting => { x with state := .releasing }
      | .free | .releasing => x
    let finished := fun (g1 : Glare) (running : Bool) (tracks : Vector Track 6) =>
      { g1 with tracks := tracks, running := running, zones := (tracks.toList.filter dims).map (zoneOf f.margin) }
    g.complete f false overload map =
        finished { g with candidates := [] } false (g.tracks.map fun x => (letGo x).ramp f) ∧
      (map.length = 600 →
        ∃ (components : List (List Nat)) (pairs : List (Nat × Nat)),
          (let hot := fun a : Nat => map[a]? = some true
          let touch := fun a b : Nat =>
            hot a ∧ hot b ∧
              ((a / 30 = b / 30 ∧ (a % 30 + 1 = b % 30 ∨ b % 30 + 1 = a % 30)) ∨
                (a % 30 = b % 30 ∧ (a / 30 + 1 = b / 30 ∨ b / 30 + 1 = a / 30)))
          let first := fun c : List Nat => c.min?.getD 0
          let record := fun c : List Nat =>
            let xs := c.map (· % 30)
            let ys := c.map (· / 30)
            ({ box := ⟨xs.min?.getD 0, xs.max?.getD 0, ys.min?.getD 0, ys.max?.getD 0⟩, cells := c.length
               qx := 4 * xs.sum / c.length + 2, qy := 4 * ys.sum / c.length + 2
               oversize := decide (f.maxBlob < c.length) } : Candidate)
          let candidates := (components.take 8).map record
          let distance := fun i j : Nat =>
            match g.tracks.toList[i]?, candidates[j]? with
            | some x, some c =>
              let dx := ((c.qx : Int) - max 0 (min 119 ((x.qx : Int) + x.vx))).natAbs
              let dy := ((c.qy : Int) - max 0 (min 79 ((x.qy : Int) + x.vy))).natAbs
              if x.state ≠ .free ∧ c.oversize = false ∧ dx ≤ f.gate ∧ dy ≤ f.gate then some (dx + dy) else none
            | _, _ => none
          let updated := g.tracks.mapIdx fun i x =>
            if x.state = .free then x
            else
              match (pairs.lookup i).bind fun j => candidates[j]? with
              | some c => x.hit c
              | none => x.miss
          let unmatched := (candidates.zipIdx.filter fun e => !pairs.any fun p => p.2 == e.2).map (·.1)
          let g1 :=
            unmatched.foldl (fun g2 c => g2.createTrack overload c)
              { g with
                candidates := candidates, tracks := updated
                droppedComponents := min 255 (g.droppedComponents + (components.length - 8)) }
          (∀ a, hot a ↔ ∃ c, c ∈ components ∧ a ∈ c) ∧ components.flatten.Nodup ∧ [] ∉ components ∧
            (∀ c a b, c ∈ components → a ∈ c → hot b → (b ∈ c ↔ Relation.ReflTransGen touch a b)) ∧
            components.Pairwise (fun c d => d.length < c.length ∨ (d.length = c.length ∧ first c < first d)) ∧
            (∀ i j, (i, j) ∈ pairs → distance i j ≠ none) ∧
            (∀ i j i' j', (i, j) ∈ pairs → (i', j') ∈ pairs → (i = i' ↔ j = j')) ∧
            (∀ i j d, distance i j = some d → (i, j) ∈ pairs ∨
              ∃ i' j' d', (i', j') ∈ pairs ∧ distance i' j' = some d' ∧ (i' = i ∨ j' = j) ∧
                (d' < d ∨ (d' = d ∧ (i' < i ∨ (i' = i ∧ j' < j))))) ∧
            g.complete f true overload map =
              finished g1 true (g1.tracks.map fun x => (x.transition f).ramp f)))) ∧
  (∀ (s : State) (side : Side) (map : List Bool),
    let latched := s.latch .glare [0, 1, 8, 9, 10, 11, 12, 13, 14, 15, 16, 17]
    let total := map.countP id
    match latched.1 with
    | none =>
      s.trackerCompletion side map =
          (latched.2.deactivate (.cam side .glareOverload)).modGlare side (fun g =>
            { g with hotTotal := total }.complete trackerGlareFallback false false map) ∧
        trackerGlareFallback.slewUp = 16 ∧ trackerGlareFallback.margin = 1
    | some ws =>
      let field := fun off n : Nat => bits (wordAt ws off) 0 n
      let f : TrackerGlare :=
        { fromTable := true, enable := (wordAt ws side.code).getLsbD 0, maxBlob := field 8 7, overload := field 9 10
          gate := field 10 6, confirmHits := field 11 4, tentativeMiss := field 12 3, coastLimit := field 13 5
          target := field 14 8, slewDown := field 15 8, slewUp := field 16 8, margin := field 17 3 }
      let overloaded := decide (f.overload ≤ total)
      let running := decide (s.mode = .run) && decide ((s.unit side).light.dayNight = .night) && f.enable
      let s1 :=
        if overloaded then latched.2.activate (.cam side .glareOverload) [BitVec.ofNat 32 total]
        else latched.2.deactivate (.cam side .glareOverload)
      s.trackerCompletion side map =
        s1.modGlare side fun g => { g with hotTotal := total }.complete f running overloaded map) ∧
  (∀ (g : Glare) (f : TrackerGlare) (running overload : Bool) (map : List Bool), g.sound →
    (running = true → 16 ≤ f.target ∧ f.target ≤ 255) → (g.complete f running overload map).sound) ∧
  (∀ s s' : State, step s = .next s' → s.glareTargetInRange → s.left.glare.sound → s.right.glare.sound →
    s'.left.glare.sound ∧ s'.right.glare.sound)

/-! ### The development core -/

/-- R32 to R40, R46, R47: the stages of a pixel. A code is decompanded by the segment it lies in, and the black level
is subtracted. Inside the frame the missing colours are floors of means of neighbours; at its edges the nine positions
are clamped into the frame, and each counts. The channels are scaled by the gains, and the luminance is compressed,
toned and applied. The compression is by the smallest attenuation of the zones that contain the pixel and never raises
the luminance; the tone is the linear interpolation of the curve. A reference pass over the whole reference frame
gives the signature over its 600 sample points and its MAIN-view image; the latched window lies inside the sensor
area. -/
def Obligations.APixelIsDevelopedInStages : Prop :=
  (∀ (p : DevProfile) (code : Code),
    let c := code.toNat
    let base1 := p.c1 * 2 ^ p.g0
    let base2 := base1 + (p.c2 - p.c1) * 2 ^ p.g1
    let base3 := base2 + (p.c3 - p.c2) * 2 ^ p.g2
    p.c1 ≤ p.c2 → p.c2 ≤ p.c3 →
      (c < p.c1 → sampleOf p code = c * 2 ^ p.g0 - p.black) ∧
      (p.c1 ≤ c → c < p.c2 → sampleOf p code = base1 + (c - p.c1) * 2 ^ p.g1 - p.black) ∧
      (p.c2 ≤ c → c < p.c3 → sampleOf p code = base2 + (c - p.c2) * 2 ^ p.g2 - p.black) ∧
      (p.c3 ≤ c → sampleOf p code = base3 + (c - p.c3) * 2 ^ p.g3 - p.black)) ∧
  (∀ (w : WorkingCopies) (m : Nat → Nat → Nat) (x y : Nat), x < 1920 → y < 1280 →
    let clamp := fun (top n : Nat) (d : Int) => (max 0 (min (top : Int) (n + d))).toNat
    let positions := ([-1, 0, 1] : List Int).flatMap fun dy =>
      ([-1, 0, 1] : List Int).map fun dx => (clamp 1919 x dx, clamp 1279 y dy)
    let isRed := fun p : Nat × Nat => decide (p.1 % 2 = 0 ∧ p.2 % 2 = 0)
    let isGreen := fun p : Nat × Nat => decide ((p.1 + p.2) % 2 = 1)
    let isBlue := fun p : Nat × Nat => decide (p.1 % 2 = 1 ∧ p.2 % 2 = 1)
    let channel := fun carries : Nat × Nat → Bool =>
      let near := (positions.filter carries).map fun p => m p.1 p.2
      if carries (x, y) then m x y else near.sum / near.length
    let r := min 1048575 (channel isRed * w.profile.gainR / 256)
    let g := min 1048575 (channel isGreen * w.profile.gainG / 256)
    let b := min 1048575 (channel isBlue * w.profile.gainB / 256)
    (developPixel w m x y).luma = (77 * r + 150 * g + 29 * b) / 256 ∧
      (developPixel w m x y).out =
        (let luma := (developPixel w m x y).luma
        let tone := interpolate w.curve (compress w.glare w.zones x y luma)
        let out := fun n => if luma = 0 then (0 : BitVec 10) else BitVec.ofNat 10 (min 1023 (n * tone / luma))
        ⟨out r, out g, out b⟩)) ∧
  (∀ p : ReferencePass, p.image = [] → 32 ≤ p.copies.mainWindow.scale →
    let w := p.copies.mainWindow
    w.y0 + 511 * w.scale / 32 < 1280 →
    let pixel := fun x y =>
      (developPixel p.copies (fun i j => sampleOf p.copies.profile (BitVec.ofNat 12 ((i + 2 * j) % 4096))) x y).out
    let channels := fun c : Rgb =>
      [c.r.toNat, c.g.toNat, c.b.toNat].flatMap fun n => [BitVec.ofNat 8 (n / 256), BitVec.ofNat 8 n]
    p.takeAll =
      { p with
        signature :=
          ((List.range 20).flatMap fun cy => (List.range 30).flatMap fun cx =>
            channels (pixel (32 + 64 * cx) (32 + 64 * cy))).foldl crcByte p.signature
        image := (List.range 512).map fun v => (List.range 1280).map fun u =>
          pixel (w.x0 + (if w.flip then 1279 - u else u) * w.scale / 32) (w.y0 + v * w.scale / 32) }) ∧
  (∀ (w : WorkingCopies) (m : Nat → Nat → Nat) (x y : Nat), 0 < x → x < 1919 → 0 < y → y < 1279 →
    let cross := (m (x - 1) y + m (x + 1) y + m x (y - 1) + m x (y + 1)) / 4
    let corners := (m (x - 1) (y - 1) + m (x + 1) (y - 1) + m (x - 1) (y + 1) + m (x + 1) (y + 1)) / 4
    let across := (m (x - 1) y + m (x + 1) y) / 2
    let down := (m x (y - 1) + m x (y + 1)) / 2
    let red := if y % 2 = 0 then (if x % 2 = 0 then m x y else across) else if x % 2 = 0 then down else corners
    let green := if (x + y) % 2 = 1 then m x y else cross
    let blue := if y % 2 = 1 then (if x % 2 = 1 then m x y else across) else if x % 2 = 1 then down else corners
    let r := min 1048575 (red * w.profile.gainR / 256)
    let g := min 1048575 (green * w.profile.gainG / 256)
    let b := min 1048575 (blue * w.profile.gainB / 256)
    let luma := (77 * r + 150 * g + 29 * b) / 256
    let tone := interpolate w.curve (compress w.glare w.zones x y luma)
    let out := fun n => if luma = 0 then (0 : BitVec 10) else BitVec.ofNat 10 (min 1023 (n * tone / luma))
    developPixel w m x y = ⟨luma, ⟨out r, out g, out b⟩⟩) ∧
  (∀ (g : DevGlare) (zones : List Zone) (x y luma : Nat),
    let inside := fun z : Zone => z.x0 ≤ x ∧ x ≤ z.x1 ∧ z.y0 ≤ y ∧ y ≤ z.y1
    let attenuation := fun z : Zone =>
      let d := min (min (x - z.x0) (z.x1 - x)) (min (y - z.y0) (z.y1 - y))
      if g.feather ≤ d then z.attenuation else 256 - (256 - z.attenuation) * (d + 1) / (g.feather + 1)
    ((luma ≤ g.knee ∨ ∀ z, z ∈ zones → ¬ inside z) → compress g zones x y luma = luma) ∧
    (∀ z, z ∈ zones → inside z → g.knee < luma →
      (∀ z', z' ∈ zones → inside z' → attenuation z ≤ attenuation z') →
      compress g zones x y luma = g.knee + (luma - g.knee) * attenuation z / 256) ∧
    ((∀ z, z ∈ zones → z.attenuation ≤ 256) → compress g zones x y luma ≤ luma)) ∧
  (∀ (curve : Curve), curve.Pairwise (fun p q => p.1 < q.1) →
    (∀ i p q x, curve[i]? = some p → curve[i + 1]? = some q → p.1 ≤ x → x < q.1 →
      interpolate curve x = p.2 + (x - p.1) * (q.2 - p.2) / (q.1 - p.1)) ∧
    (∀ p x, curve.getLast? = some p → p.1 ≤ x → interpolate curve x = p.2))

/-! ### What every step keeps -/

/-- R156, R168, R173, R161, R120: every step keeps the table store sound: the table RAM in its canonical form, every
sync copy with a word left to copy, the scrubber's position an address; and the corruption list holds each CORRUPT
kind once, with TABLE_DED active exactly while a kind is CORRUPT. Every step from a sound table store keeps the
GLARE tables sound: the target attenuation of a usable live bank in 16..255 (R166, R178), and during the clearing no
usable GLARE and no queued command (R176). -/
def Obligations.EveryStepKeepsTheTablesSound : Prop :=
  ∀ s s' : State, step s = .next s' →
    (s.tables.sound → s'.tables.sound) ∧ (s.corruptionSound → s'.corruptionSound) ∧
      (s.tables.sound → s.glareTablesSound → s'.glareTablesSound)

/-- R136, R124: every step keeps at most 32 records in the log, in increasing sequence with no gap, and keeps
the enable of RESET_SEEN set. -/
def Obligations.EveryStepKeepsTheFaultManagerSound : Prop :=
  ∀ s s' : State, s.faults.sound → step s = .next s' → s'.faults.sound

/-- R49, R50, R52 and chapter 3.3: every step keeps at most one FILLING, READY and SHOWN buffer in each ring, a
FILLING buffer only for a developed frame in reception that may still be accepted, and a SHOWN buffer behind every
LIVE or HOLDING view in RUN. -/
def Obligations.EveryStepKeepsTheViewsSound : Prop :=
  ∀ s s' : State, s.viewsSound → step s = .next s' → s'.viewsSound

/-- R185, R186: every step keeps at most 4 commands in each command queue, at most 8 commands and responses on each
link, and the executor not EXECUTING. -/
def Obligations.EveryStepKeepsTheLinksSound : Prop :=
  ∀ s s' : State, s.linksSound → step s = .next s' → s'.linksSound

/-- R176, R139, R191, R48: the state after power-on has all that every step keeps. -/
def Obligations.ThePowerOnStateIsSound : Prop :=
  State.reset.tables.sound ∧ State.reset.corruptionSound ∧ State.reset.faults.sound ∧ State.reset.viewsSound ∧
    State.reset.linksSound ∧ State.reset.glareTablesSound ∧ State.reset.left.glare.sound ∧
    State.reset.right.glare.sound

/-- R198, R199, R200, R159: the mode becomes RUN only by ENTER_RUN, with the five kinds it needs usable, and CONFIG
only by ENTER_CONFIG, the soft reset instant or power-on; a generation and a live bank change only by COMMIT_TABLE
or power-on, and of a locked kind only by power-on (R171). -/
def Obligations.ModeAndBanksChangeOnlyByTheirCommands : Prop :=
  ∀ (i : Instr) (s s' : State), exec i s = .next s' →
    (s.mode = .config → s'.mode = .run →
      (∃ t link tag param, i = .enterRun t link tag param) ∧
        ∀ k, k ∈ [Kind.cameraL, .cameraR, .view, .tone, .timing] → s.tables.usable k = true) ∧
    (s.mode = .run → s'.mode = .config →
      (∃ t link tag param, i = .enterConfig t link tag param) ∨ (∃ t, i = .softResetInstant t) ∨ i = .powerOn) ∧
    (∀ k, (s'.tables.kind k).generation ≠ (s.tables.kind k).generation ∨
        (s'.tables.kind k).live ≠ (s.tables.kind k).live →
      (∃ t link tag param, i = .commitTable t link tag param ∧ (s.tables.kind k).locked = false) ∨ i = .powerOn)
end

