-- ==== Sys2Proof/Laws/State.lean ====
section
/-! SUPPORT. What each update of the state leaves alone and what it sets, one lemma per field, so that no proof
unfolds a record update. Every change of one block is a change of its side (`State.modUnit`). -/

namespace Sys2Proof.Machine

/-! ### Changing the blocks of a side -/

@[simp] theorem State.modUnit_unit_same (s : State) (side : Side) (f : SideUnit → SideUnit) :
    (s.modUnit side f).unit side = f (s.unit side) := by cases side <;> rfl

@[simp] theorem State.modUnit_unit_left_right (s : State) (f : SideUnit → SideUnit) :
    (s.modUnit .left f).unit .right = s.unit .right := rfl

@[simp] theorem State.modUnit_unit_right_left (s : State) (f : SideUnit → SideUnit) :
    (s.modUnit .right f).unit .left = s.unit .left := rfl

theorem State.modUnit_unit_of_ne (s : State) {a b : Side} (h : b ≠ a) (f : SideUnit → SideUnit) :
    (s.modUnit a f).unit b = s.unit b := by cases a <;> cases b <;> first | rfl | exact absurd rfl h

@[simp] theorem State.modUnit_unit_other (s : State) (side : Side) (f : SideUnit → SideUnit) :
    (s.modUnit side f).unit side.other = s.unit side.other := by cases side <;> rfl

theorem State.modUnit_modUnit (s : State) (side : Side) (f g : SideUnit → SideUnit) :
    (s.modUnit side f).modUnit side g = s.modUnit side (g ∘ f) := by cases side <;> rfl

@[simp] theorem State.modUnit_clock (s : State) (side : Side) (f : SideUnit → SideUnit) :
    (s.modUnit side f).clock = s.clock := by cases side <;> rfl

@[simp] theorem State.modUnit_clearing (s : State) (side : Side) (f : SideUnit → SideUnit) :
    (s.modUnit side f).clearing = s.clearing := by cases side <;> rfl

@[simp] theorem State.modUnit_mode (s : State) (side : Side) (f : SideUnit → SideUnit) :
    (s.modUnit side f).mode = s.mode := by cases side <;> rfl

@[simp] theorem State.modUnit_latestStartL (s : State) (side : Side) (f : SideUnit → SideUnit) :
    (s.modUnit side f).latestStartL = s.latestStartL := by cases side <;> rfl

@[simp] theorem State.modUnit_skew (s : State) (side : Side) (f : SideUnit → SideUnit) :
    (s.modUnit side f).skew = s.skew := by cases side <;> rfl

@[simp] theorem State.modUnit_faults (s : State) (side : Side) (f : SideUnit → SideUnit) :
    (s.modUnit side f).faults = s.faults := by cases side <;> rfl

@[simp] theorem State.modUnit_tables (s : State) (side : Side) (f : SideUnit → SideUnit) :
    (s.modUnit side f).tables = s.tables := by cases side <;> rfl

@[simp] theorem State.modUnit_executor (s : State) (side : Side) (f : SideUnit → SideUnit) :
    (s.modUnit side f).executor = s.executor := by cases side <;> rfl

@[simp] theorem State.modUnit_lastServed (s : State) (side : Side) (f : SideUnit → SideUnit) :
    (s.modUnit side f).lastServed = s.lastServed := by cases side <;> rfl

@[simp] theorem State.modUnit_pending (s : State) (side : Side) (f : SideUnit → SideUnit) :
    (s.modUnit side f).pending = s.pending := by cases side <;> rfl

/-! ### One block of a side -/

theorem State.modIngest_eq (s : State) (side : Side) (f : Ingest → Ingest) :
    s.modIngest side f = s.modUnit side fun u => { u with ingest := f u.ingest } := rfl

@[simp] theorem State.modIngest_clock (s : State) (side : Side) (f : Ingest → Ingest) :
    (s.modIngest side f).clock = s.clock := by cases side <;> rfl

@[simp] theorem State.modIngest_clearing (s : State) (side : Side) (f : Ingest → Ingest) :
    (s.modIngest side f).clearing = s.clearing := by cases side <;> rfl

@[simp] theorem State.modIngest_mode (s : State) (side : Side) (f : Ingest → Ingest) :
    (s.modIngest side f).mode = s.mode := by cases side <;> rfl

@[simp] theorem State.modIngest_latestStartL (s : State) (side : Side) (f : Ingest → Ingest) :
    (s.modIngest side f).latestStartL = s.latestStartL := by cases side <;> rfl

@[simp] theorem State.modIngest_skew (s : State) (side : Side) (f : Ingest → Ingest) :
    (s.modIngest side f).skew = s.skew := by cases side <;> rfl

@[simp] theorem State.modIngest_faults (s : State) (side : Side) (f : Ingest → Ingest) :
    (s.modIngest side f).faults = s.faults := by cases side <;> rfl

@[simp] theorem State.modIngest_tables (s : State) (side : Side) (f : Ingest → Ingest) :
    (s.modIngest side f).tables = s.tables := by cases side <;> rfl

@[simp] theorem State.modIngest_executor (s : State) (side : Side) (f : Ingest → Ingest) :
    (s.modIngest side f).executor = s.executor := by cases side <;> rfl

@[simp] theorem State.modIngest_lastServed (s : State) (side : Side) (f : Ingest → Ingest) :
    (s.modIngest side f).lastServed = s.lastServed := by cases side <;> rfl

@[simp] theorem State.modIngest_pending (s : State) (side : Side) (f : Ingest → Ingest) :
    (s.modIngest side f).pending = s.pending := by cases side <;> rfl

@[simp] theorem State.modIngest_unit_same (s : State) (side : Side) (f : Ingest → Ingest) :
    (s.modIngest side f).unit side = { s.unit side with ingest := f (s.unit side).ingest } := by cases side <;> rfl

@[simp] theorem State.modIngest_unit_other (s : State) (side : Side) (f : Ingest → Ingest) :
    (s.modIngest side f).unit side.other = s.unit side.other := by cases side <;> rfl

theorem State.modGlare_eq (s : State) (side : Side) (f : Glare → Glare) :
    s.modGlare side f = s.modUnit side fun u => { u with glare := f u.glare } := rfl

@[simp] theorem State.modGlare_clock (s : State) (side : Side) (f : Glare → Glare) :
    (s.modGlare side f).clock = s.clock := by cases side <;> rfl

@[simp] theorem State.modGlare_clearing (s : State) (side : Side) (f : Glare → Glare) :
    (s.modGlare side f).clearing = s.clearing := by cases side <;> rfl

@[simp] theorem State.modGlare_mode (s : State) (side : Side) (f : Glare → Glare) :
    (s.modGlare side f).mode = s.mode := by cases side <;> rfl

@[simp] theorem State.modGlare_latestStartL (s : State) (side : Side) (f : Glare → Glare) :
    (s.modGlare side f).latestStartL = s.latestStartL := by cases side <;> rfl

@[simp] theorem State.modGlare_skew (s : State) (side : Side) (f : Glare → Glare) :
    (s.modGlare side f).skew = s.skew := by cases side <;> rfl

@[simp] theorem State.modGlare_faults (s : State) (side : Side) (f : Glare → Glare) :
    (s.modGlare side f).faults = s.faults := by cases side <;> rfl

@[simp] theorem State.modGlare_tables (s : State) (side : Side) (f : Glare → Glare) :
    (s.modGlare side f).tables = s.tables := by cases side <;> rfl

@[simp] theorem State.modGlare_executor (s : State) (side : Side) (f : Glare → Glare) :
    (s.modGlare side f).executor = s.executor := by cases side <;> rfl

@[simp] theorem State.modGlare_lastServed (s : State) (side : Side) (f : Glare → Glare) :
    (s.modGlare side f).lastServed = s.lastServed := by cases side <;> rfl

@[simp] theorem State.modGlare_pending (s : State) (side : Side) (f : Glare → Glare) :
    (s.modGlare side f).pending = s.pending := by cases side <;> rfl

@[simp] theorem State.modGlare_unit_same (s : State) (side : Side) (f : Glare → Glare) :
    (s.modGlare side f).unit side = { s.unit side with glare := f (s.unit side).glare } := by cases side <;> rfl

@[simp] theorem State.modGlare_unit_other (s : State) (side : Side) (f : Glare → Glare) :
    (s.modGlare side f).unit side.other = s.unit side.other := by cases side <;> rfl

theorem State.modComposer_eq (s : State) (side : Side) (f : Composer → Composer) :
    s.modComposer side f = s.modUnit side fun u => { u with composer := f u.composer } := rfl

@[simp] theorem State.modComposer_clock (s : State) (side : Side) (f : Composer → Composer) :
    (s.modComposer side f).clock = s.clock := by cases side <;> rfl

@[simp] theorem State.modComposer_clearing (s : State) (side : Side) (f : Composer → Composer) :
    (s.modComposer side f).clearing = s.clearing := by cases side <;> rfl

@[simp] theorem State.modComposer_mode (s : State) (side : Side) (f : Composer → Composer) :
    (s.modComposer side f).mode = s.mode := by cases side <;> rfl

@[simp] theorem State.modComposer_latestStartL (s : State) (side : Side) (f : Composer → Composer) :
    (s.modComposer side f).latestStartL = s.latestStartL := by cases side <;> rfl

@[simp] theorem State.modComposer_skew (s : State) (side : Side) (f : Composer → Composer) :
    (s.modComposer side f).skew = s.skew := by cases side <;> rfl

@[simp] theorem State.modComposer_faults (s : State) (side : Side) (f : Composer → Composer) :
    (s.modComposer side f).faults = s.faults := by cases side <;> rfl

@[simp] theorem State.modComposer_tables (s : State) (side : Side) (f : Composer → Composer) :
    (s.modComposer side f).tables = s.tables := by cases side <;> rfl

@[simp] theorem State.modComposer_executor (s : State) (side : Side) (f : Composer → Composer) :
    (s.modComposer side f).executor = s.executor := by cases side <;> rfl

@[simp] theorem State.modComposer_lastServed (s : State) (side : Side) (f : Composer → Composer) :
    (s.modComposer side f).lastServed = s.lastServed := by cases side <;> rfl

@[simp] theorem State.modComposer_pending (s : State) (side : Side) (f : Composer → Composer) :
    (s.modComposer side f).pending = s.pending := by cases side <;> rfl

@[simp] theorem State.modComposer_unit_same (s : State) (side : Side) (f : Composer → Composer) :
    (s.modComposer side f).unit side = { s.unit side with composer := f (s.unit side).composer } := by cases side <;> rfl

@[simp] theorem State.modComposer_unit_other (s : State) (side : Side) (f : Composer → Composer) :
    (s.modComposer side f).unit side.other = s.unit side.other := by cases side <;> rfl

theorem State.modLight_eq (s : State) (side : Side) (f : Light → Light) :
    s.modLight side f = s.modUnit side fun u => { u with light := f u.light } := rfl

@[simp] theorem State.modLight_clock (s : State) (side : Side) (f : Light → Light) :
    (s.modLight side f).clock = s.clock := by cases side <;> rfl

@[simp] theorem State.modLight_clearing (s : State) (side : Side) (f : Light → Light) :
    (s.modLight side f).clearing = s.clearing := by cases side <;> rfl

@[simp] theorem State.modLight_mode (s : State) (side : Side) (f : Light → Light) :
    (s.modLight side f).mode = s.mode := by cases side <;> rfl

@[simp] theorem State.modLight_latestStartL (s : State) (side : Side) (f : Light → Light) :
    (s.modLight side f).latestStartL = s.latestStartL := by cases side <;> rfl

@[simp] theorem State.modLight_skew (s : State) (side : Side) (f : Light → Light) :
    (s.modLight side f).skew = s.skew := by cases side <;> rfl

@[simp] theorem State.modLight_faults (s : State) (side : Side) (f : Light → Light) :
    (s.modLight side f).faults = s.faults := by cases side <;> rfl

@[simp] theorem State.modLight_tables (s : State) (side : Side) (f : Light → Light) :
    (s.modLight side f).tables = s.tables := by cases side <;> rfl

@[simp] theorem State.modLight_executor (s : State) (side : Side) (f : Light → Light) :
    (s.modLight side f).executor = s.executor := by cases side <;> rfl

@[simp] theorem State.modLight_lastServed (s : State) (side : Side) (f : Light → Light) :
    (s.modLight side f).lastServed = s.lastServed := by cases side <;> rfl

@[simp] theorem State.modLight_pending (s : State) (side : Side) (f : Light → Light) :
    (s.modLight side f).pending = s.pending := by cases side <;> rfl

@[simp] theorem State.modLight_unit_same (s : State) (side : Side) (f : Light → Light) :
    (s.modLight side f).unit side = { s.unit side with light := f (s.unit side).light } := by cases side <;> rfl

@[simp] theorem State.modLight_unit_other (s : State) (side : Side) (f : Light → Light) :
    (s.modLight side f).unit side.other = s.unit side.other := by cases side <;> rfl

theorem State.modSequencer_eq (s : State) (side : Side) (f : Sequencer → Sequencer) :
    s.modSequencer side f = s.modUnit side fun u => { u with sequencer := f u.sequencer } := rfl

@[simp] theorem State.modSequencer_clock (s : State) (side : Side) (f : Sequencer → Sequencer) :
    (s.modSequencer side f).clock = s.clock := by cases side <;> rfl

@[simp] theorem State.modSequencer_clearing (s : State) (side : Side) (f : Sequencer → Sequencer) :
    (s.modSequencer side f).clearing = s.clearing := by cases side <;> rfl

@[simp] theorem State.modSequencer_mode (s : State) (side : Side) (f : Sequencer → Sequencer) :
    (s.modSequencer side f).mode = s.mode := by cases side <;> rfl

@[simp] theorem State.modSequencer_latestStartL (s : State) (side : Side) (f : Sequencer → Sequencer) :
    (s.modSequencer side f).latestStartL = s.latestStartL := by cases side <;> rfl

@[simp] theorem State.modSequencer_skew (s : State) (side : Side) (f : Sequencer → Sequencer) :
    (s.modSequencer side f).skew = s.skew := by cases side <;> rfl

@[simp] theorem State.modSequencer_faults (s : State) (side : Side) (f : Sequencer → Sequencer) :
    (s.modSequencer side f).faults = s.faults := by cases side <;> rfl

@[simp] theorem State.modSequencer_tables (s : State) (side : Side) (f : Sequencer → Sequencer) :
    (s.modSequencer side f).tables = s.tables := by cases side <;> rfl

@[simp] theorem State.modSequencer_executor (s : State) (side : Side) (f : Sequencer → Sequencer) :
    (s.modSequencer side f).executor = s.executor := by cases side <;> rfl

@[simp] theorem State.modSequencer_lastServed (s : State) (side : Side) (f : Sequencer → Sequencer) :
    (s.modSequencer side f).lastServed = s.lastServed := by cases side <;> rfl

@[simp] theorem State.modSequencer_pending (s : State) (side : Side) (f : Sequencer → Sequencer) :
    (s.modSequencer side f).pending = s.pending := by cases side <;> rfl

@[simp] theorem State.modSequencer_unit_same (s : State) (side : Side) (f : Sequencer → Sequencer) :
    (s.modSequencer side f).unit side = { s.unit side with sequencer := f (s.unit side).sequencer } := by cases side <;> rfl

@[simp] theorem State.modSequencer_unit_other (s : State) (side : Side) (f : Sequencer → Sequencer) :
    (s.modSequencer side f).unit side.other = s.unit side.other := by cases side <;> rfl

theorem State.modBuffer_eq (s : State) (side : Side) (f : SelfTestBuffer → SelfTestBuffer) :
    s.modBuffer side f = s.modUnit side fun u => { u with buffer := f u.buffer } := rfl

@[simp] theorem State.modBuffer_clock (s : State) (side : Side) (f : SelfTestBuffer → SelfTestBuffer) :
    (s.modBuffer side f).clock = s.clock := by cases side <;> rfl

@[simp] theorem State.modBuffer_clearing (s : State) (side : Side) (f : SelfTestBuffer → SelfTestBuffer) :
    (s.modBuffer side f).clearing = s.clearing := by cases side <;> rfl

@[simp] theorem State.modBuffer_mode (s : State) (side : Side) (f : SelfTestBuffer → SelfTestBuffer) :
    (s.modBuffer side f).mode = s.mode := by cases side <;> rfl

@[simp] theorem State.modBuffer_latestStartL (s : State) (side : Side) (f : SelfTestBuffer → SelfTestBuffer) :
    (s.modBuffer side f).latestStartL = s.latestStartL := by cases side <;> rfl

@[simp] theorem State.modBuffer_skew (s : State) (side : Side) (f : SelfTestBuffer → SelfTestBuffer) :
    (s.modBuffer side f).skew = s.skew := by cases side <;> rfl

@[simp] theorem State.modBuffer_faults (s : State) (side : Side) (f : SelfTestBuffer → SelfTestBuffer) :
    (s.modBuffer side f).faults = s.faults := by cases side <;> rfl

@[simp] theorem State.modBuffer_tables (s : State) (side : Side) (f : SelfTestBuffer → SelfTestBuffer) :
    (s.modBuffer side f).tables = s.tables := by cases side <;> rfl

@[simp] theorem State.modBuffer_executor (s : State) (side : Side) (f : SelfTestBuffer → SelfTestBuffer) :
    (s.modBuffer side f).executor = s.executor := by cases side <;> rfl

@[simp] theorem State.modBuffer_lastServed (s : State) (side : Side) (f : SelfTestBuffer → SelfTestBuffer) :
    (s.modBuffer side f).lastServed = s.lastServed := by cases side <;> rfl

@[simp] theorem State.modBuffer_pending (s : State) (side : Side) (f : SelfTestBuffer → SelfTestBuffer) :
    (s.modBuffer side f).pending = s.pending := by cases side <;> rfl

@[simp] theorem State.modBuffer_unit_same (s : State) (side : Side) (f : SelfTestBuffer → SelfTestBuffer) :
    (s.modBuffer side f).unit side = { s.unit side with buffer := f (s.unit side).buffer } := by cases side <;> rfl

@[simp] theorem State.modBuffer_unit_other (s : State) (side : Side) (f : SelfTestBuffer → SelfTestBuffer) :
    (s.modBuffer side f).unit side.other = s.unit side.other := by cases side <;> rfl

theorem State.modChannel_eq (s : State) (side : Side) (f : Link → Link) :
    s.modChannel side f = s.modUnit side fun u => { u with channel := f u.channel } := rfl

@[simp] theorem State.modChannel_clock (s : State) (side : Side) (f : Link → Link) :
    (s.modChannel side f).clock = s.clock := by cases side <;> rfl

@[simp] theorem State.modChannel_clearing (s : State) (side : Side) (f : Link → Link) :
    (s.modChannel side f).clearing = s.clearing := by cases side <;> rfl

@[simp] theorem State.modChannel_mode (s : State) (side : Side) (f : Link → Link) :
    (s.modChannel side f).mode = s.mode := by cases side <;> rfl

@[simp] theorem State.modChannel_latestStartL (s : State) (side : Side) (f : Link → Link) :
    (s.modChannel side f).latestStartL = s.latestStartL := by cases side <;> rfl

@[simp] theorem State.modChannel_skew (s : State) (side : Side) (f : Link → Link) :
    (s.modChannel side f).skew = s.skew := by cases side <;> rfl

@[simp] theorem State.modChannel_faults (s : State) (side : Side) (f : Link → Link) :
    (s.modChannel side f).faults = s.faults := by cases side <;> rfl

@[simp] theorem State.modChannel_tables (s : State) (side : Side) (f : Link → Link) :
    (s.modChannel side f).tables = s.tables := by cases side <;> rfl

@[simp] theorem State.modChannel_executor (s : State) (side : Side) (f : Link → Link) :
    (s.modChannel side f).executor = s.executor := by cases side <;> rfl

@[simp] theorem State.modChannel_lastServed (s : State) (side : Side) (f : Link → Link) :
    (s.modChannel side f).lastServed = s.lastServed := by cases side <;> rfl

@[simp] theorem State.modChannel_pending (s : State) (side : Side) (f : Link → Link) :
    (s.modChannel side f).pending = s.pending := by cases side <;> rfl

@[simp] theorem State.modChannel_unit_same (s : State) (side : Side) (f : Link → Link) :
    (s.modChannel side f).unit side = { s.unit side with channel := f (s.unit side).channel } := by cases side <;> rfl

@[simp] theorem State.modChannel_unit_other (s : State) (side : Side) (f : Link → Link) :
    (s.modChannel side f).unit side.other = s.unit side.other := by cases side <;> rfl

theorem State.setPass_eq (s : State) (side : Side) (f : Pass) :
    s.setPass side f = s.modUnit side fun u => { u with pass := f } := rfl

@[simp] theorem State.setPass_clock (s : State) (side : Side) (f : Pass) :
    (s.setPass side f).clock = s.clock := by cases side <;> rfl

@[simp] theorem State.setPass_clearing (s : State) (side : Side) (f : Pass) :
    (s.setPass side f).clearing = s.clearing := by cases side <;> rfl

@[simp] theorem State.setPass_mode (s : State) (side : Side) (f : Pass) :
    (s.setPass side f).mode = s.mode := by cases side <;> rfl

@[simp] theorem State.setPass_latestStartL (s : State) (side : Side) (f : Pass) :
    (s.setPass side f).latestStartL = s.latestStartL := by cases side <;> rfl

@[simp] theorem State.setPass_skew (s : State) (side : Side) (f : Pass) :
    (s.setPass side f).skew = s.skew := by cases side <;> rfl

@[simp] theorem State.setPass_faults (s : State) (side : Side) (f : Pass) :
    (s.setPass side f).faults = s.faults := by cases side <;> rfl

@[simp] theorem State.setPass_tables (s : State) (side : Side) (f : Pass) :
    (s.setPass side f).tables = s.tables := by cases side <;> rfl

@[simp] theorem State.setPass_executor (s : State) (side : Side) (f : Pass) :
    (s.setPass side f).executor = s.executor := by cases side <;> rfl

@[simp] theorem State.setPass_lastServed (s : State) (side : Side) (f : Pass) :
    (s.setPass side f).lastServed = s.lastServed := by cases side <;> rfl

@[simp] theorem State.setPass_pending (s : State) (side : Side) (f : Pass) :
    (s.setPass side f).pending = s.pending := by cases side <;> rfl

@[simp] theorem State.setPass_unit_same (s : State) (side : Side) (f : Pass) :
    (s.setPass side f).unit side = { s.unit side with pass := f } := by cases side <;> rfl

@[simp] theorem State.setPass_unit_other (s : State) (side : Side) (f : Pass) :
    (s.setPass side f).unit side.other = s.unit side.other := by cases side <;> rfl

theorem State.modViews_eq (s : State) (side : Side) (f : ViewUnit → ViewUnit) :
    s.modViews side f = s.modUnit side fun u => { u with main := f u.main, wide := f u.wide } := rfl

@[simp] theorem State.modViews_clock (s : State) (side : Side) (f : ViewUnit → ViewUnit) :
    (s.modViews side f).clock = s.clock := by cases side <;> rfl

@[simp] theorem State.modViews_clearing (s : State) (side : Side) (f : ViewUnit → ViewUnit) :
    (s.modViews side f).clearing = s.clearing := by cases side <;> rfl

@[simp] theorem State.modViews_mode (s : State) (side : Side) (f : ViewUnit → ViewUnit) :
    (s.modViews side f).mode = s.mode := by cases side <;> rfl

@[simp] theorem State.modViews_latestStartL (s : State) (side : Side) (f : ViewUnit → ViewUnit) :
    (s.modViews side f).latestStartL = s.latestStartL := by cases side <;> rfl

@[simp] theorem State.modViews_skew (s : State) (side : Side) (f : ViewUnit → ViewUnit) :
    (s.modViews side f).skew = s.skew := by cases side <;> rfl

@[simp] theorem State.modViews_faults (s : State) (side : Side) (f : ViewUnit → ViewUnit) :
    (s.modViews side f).faults = s.faults := by cases side <;> rfl

@[simp] theorem State.modViews_tables (s : State) (side : Side) (f : ViewUnit → ViewUnit) :
    (s.modViews side f).tables = s.tables := by cases side <;> rfl

@[simp] theorem State.modViews_executor (s : State) (side : Side) (f : ViewUnit → ViewUnit) :
    (s.modViews side f).executor = s.executor := by cases side <;> rfl

@[simp] theorem State.modViews_lastServed (s : State) (side : Side) (f : ViewUnit → ViewUnit) :
    (s.modViews side f).lastServed = s.lastServed := by cases side <;> rfl

@[simp] theorem State.modViews_pending (s : State) (side : Side) (f : ViewUnit → ViewUnit) :
    (s.modViews side f).pending = s.pending := by cases side <;> rfl

@[simp] theorem State.modViews_unit_same (s : State) (side : Side) (f : ViewUnit → ViewUnit) :
    (s.modViews side f).unit side = { s.unit side with main := f (s.unit side).main, wide := f (s.unit side).wide } := by cases side <;> rfl

@[simp] theorem State.modViews_unit_other (s : State) (side : Side) (f : ViewUnit → ViewUnit) :
    (s.modViews side f).unit side.other = s.unit side.other := by cases side <;> rfl

/-! ### One view -/

@[simp] theorem State.modView_clock (s : State) (v : View) (f : ViewUnit → ViewUnit) :
    (s.modView v f).clock = s.clock := by cases v <;> rfl

@[simp] theorem State.modView_clearing (s : State) (v : View) (f : ViewUnit → ViewUnit) :
    (s.modView v f).clearing = s.clearing := by cases v <;> rfl

@[simp] theorem State.modView_mode (s : State) (v : View) (f : ViewUnit → ViewUnit) :
    (s.modView v f).mode = s.mode := by cases v <;> rfl

@[simp] theorem State.modView_latestStartL (s : State) (v : View) (f : ViewUnit → ViewUnit) :
    (s.modView v f).latestStartL = s.latestStartL := by cases v <;> rfl

@[simp] theorem State.modView_skew (s : State) (v : View) (f : ViewUnit → ViewUnit) :
    (s.modView v f).skew = s.skew := by cases v <;> rfl

@[simp] theorem State.modView_faults (s : State) (v : View) (f : ViewUnit → ViewUnit) :
    (s.modView v f).faults = s.faults := by cases v <;> rfl

@[simp] theorem State.modView_tables (s : State) (v : View) (f : ViewUnit → ViewUnit) :
    (s.modView v f).tables = s.tables := by cases v <;> rfl

@[simp] theorem State.modView_executor (s : State) (v : View) (f : ViewUnit → ViewUnit) :
    (s.modView v f).executor = s.executor := by cases v <;> rfl

@[simp] theorem State.modView_lastServed (s : State) (v : View) (f : ViewUnit → ViewUnit) :
    (s.modView v f).lastServed = s.lastServed := by cases v <;> rfl

@[simp] theorem State.modView_pending (s : State) (v : View) (f : ViewUnit → ViewUnit) :
    (s.modView v f).pending = s.pending := by cases v <;> rfl

@[simp] theorem State.modView_view (s : State) (v : View) (f : ViewUnit → ViewUnit) :
    (s.modView v f).view v = f (s.view v) := by cases v <;> rfl

theorem State.modView_view_of_ne (s : State) {v w : View} (h : w ≠ v) (f : ViewUnit → ViewUnit) :
    (s.modView v f).view w = s.view w := by cases v <;> cases w <;> first | rfl | exact absurd rfl h

/-! ### Device time -/

@[simp] theorem State.advance_clearing (s : State) (t : Time) : (s.advance t).clearing = s.clearing := rfl

@[simp] theorem State.advance_mode (s : State) (t : Time) : (s.advance t).mode = s.mode := rfl

@[simp] theorem State.advance_latestStartL (s : State) (t : Time) : (s.advance t).latestStartL = s.latestStartL := rfl

@[simp] theorem State.advance_skew (s : State) (t : Time) : (s.advance t).skew = s.skew := rfl

@[simp] theorem State.advance_faults (s : State) (t : Time) : (s.advance t).faults = s.faults := rfl

@[simp] theorem State.advance_tables (s : State) (t : Time) : (s.advance t).tables = s.tables := rfl

@[simp] theorem State.advance_executor (s : State) (t : Time) : (s.advance t).executor = s.executor := rfl

@[simp] theorem State.advance_lastServed (s : State) (t : Time) : (s.advance t).lastServed = s.lastServed := rfl

@[simp] theorem State.advance_pending (s : State) (t : Time) : (s.advance t).pending = s.pending := rfl

@[simp] theorem State.advance_unit (s : State) (t : Time) (side : Side) : (s.advance t).unit side = s.unit side := by
  cases side <;> rfl

@[simp] theorem State.advance_view (s : State) (t : Time) (v : View) : (s.advance t).view v = s.view v := by
  cases v <;> rfl

/-- The device time of a step is the one it carries. -/
@[simp] theorem State.advance_now (s : State) (t : Time) : (s.advance t).now = t := by
  simp only [State.advance, State.now, BitVec.ofNat_add, BitVec.ofNat_toNat, BitVec.setWidth_eq]
  exact add_sub_cancel _ _

/-! ### Reports to the fault manager -/

@[simp] theorem State.activate_clock (s : State) (d : Descriptor) (w : List Word) : (s.activate d w).clock = s.clock := rfl

@[simp] theorem State.activate_clearing (s : State) (d : Descriptor) (w : List Word) : (s.activate d w).clearing = s.clearing := rfl

@[simp] theorem State.activate_mode (s : State) (d : Descriptor) (w : List Word) : (s.activate d w).mode = s.mode := rfl

@[simp] theorem State.activate_latestStartL (s : State) (d : Descriptor) (w : List Word) : (s.activate d w).latestStartL = s.latestStartL := rfl

@[simp] theorem State.activate_skew (s : State) (d : Descriptor) (w : List Word) : (s.activate d w).skew = s.skew := rfl

@[simp] theorem State.activate_tables (s : State) (d : Descriptor) (w : List Word) : (s.activate d w).tables = s.tables := rfl

@[simp] theorem State.activate_executor (s : State) (d : Descriptor) (w : List Word) : (s.activate d w).executor = s.executor := rfl

@[simp] theorem State.activate_lastServed (s : State) (d : Descriptor) (w : List Word) : (s.activate d w).lastServed = s.lastServed := rfl

@[simp] theorem State.activate_pending (s : State) (d : Descriptor) (w : List Word) : (s.activate d w).pending = s.pending := rfl

@[simp] theorem State.activate_unit (s : State) (d : Descriptor) (w : List Word) (side : Side) :
    (s.activate d w).unit side = s.unit side := by cases side <;> rfl

@[simp] theorem State.activate_view (s : State) (d : Descriptor) (w : List Word) (v : View) :
    (s.activate d w).view v = s.view v := by cases v <;> rfl

@[simp] theorem State.deactivate_clock (s : State) (d : Descriptor) : (s.deactivate d).clock = s.clock := rfl

@[simp] theorem State.deactivate_clearing (s : State) (d : Descriptor) : (s.deactivate d).clearing = s.clearing := rfl

@[simp] theorem State.deactivate_mode (s : State) (d : Descriptor) : (s.deactivate d).mode = s.mode := rfl

@[simp] theorem State.deactivate_latestStartL (s : State) (d : Descriptor) : (s.deactivate d).latestStartL = s.latestStartL := rfl

@[simp] theorem State.deactivate_skew (s : State) (d : Descriptor) : (s.deactivate d).skew = s.skew := rfl

@[simp] theorem State.deactivate_tables (s : State) (d : Descriptor) : (s.deactivate d).tables = s.tables := rfl

@[simp] theorem State.deactivate_executor (s : State) (d : Descriptor) : (s.deactivate d).executor = s.executor := rfl

@[simp] theorem State.deactivate_lastServed (s : State) (d : Descriptor) : (s.deactivate d).lastServed = s.lastServed := rfl

@[simp] theorem State.deactivate_pending (s : State) (d : Descriptor) : (s.deactivate d).pending = s.pending := rfl

@[simp] theorem State.deactivate_unit (s : State) (d : Descriptor) (side : Side) :
    (s.deactivate d).unit side = s.unit side := by cases side <;> rfl

@[simp] theorem State.deactivate_view (s : State) (d : Descriptor) (v : View) :
    (s.deactivate d).view v = s.view v := by cases v <;> rfl

@[simp] theorem State.raise_clock (s : State) (d : Descriptor) (w : List Word) : (s.raise d w).clock = s.clock := rfl

@[simp] theorem State.raise_clearing (s : State) (d : Descriptor) (w : List Word) : (s.raise d w).clearing = s.clearing := rfl

@[simp] theorem State.raise_mode (s : State) (d : Descriptor) (w : List Word) : (s.raise d w).mode = s.mode := rfl

@[simp] theorem State.raise_latestStartL (s : State) (d : Descriptor) (w : List Word) : (s.raise d w).latestStartL = s.latestStartL := rfl

@[simp] theorem State.raise_skew (s : State) (d : Descriptor) (w : List Word) : (s.raise d w).skew = s.skew := rfl

@[simp] theorem State.raise_tables (s : State) (d : Descriptor) (w : List Word) : (s.raise d w).tables = s.tables := rfl

@[simp] theorem State.raise_executor (s : State) (d : Descriptor) (w : List Word) : (s.raise d w).executor = s.executor := rfl

@[simp] theorem State.raise_lastServed (s : State) (d : Descriptor) (w : List Word) : (s.raise d w).lastServed = s.lastServed := rfl

@[simp] theorem State.raise_pending (s : State) (d : Descriptor) (w : List Word) : (s.raise d w).pending = s.pending := rfl

@[simp] theorem State.raise_unit (s : State) (d : Descriptor) (w : List Word) (side : Side) :
    (s.raise d w).unit side = s.unit side := by cases side <;> rfl

@[simp] theorem State.raise_view (s : State) (d : Descriptor) (w : List Word) (v : View) :
    (s.raise d w).view v = s.view v := by cases v <;> rfl

@[simp] theorem State.level_clock (s : State) (d : Descriptor) (b : Bool) (w : List Word) : (s.level d b w).clock = s.clock := by cases b <;> rfl

@[simp] theorem State.level_clearing (s : State) (d : Descriptor) (b : Bool) (w : List Word) : (s.level d b w).clearing = s.clearing := by cases b <;> rfl

@[simp] theorem State.level_mode (s : State) (d : Descriptor) (b : Bool) (w : List Word) : (s.level d b w).mode = s.mode := by cases b <;> rfl

@[simp] theorem State.level_latestStartL (s : State) (d : Descriptor) (b : Bool) (w : List Word) : (s.level d b w).latestStartL = s.latestStartL := by cases b <;> rfl

@[simp] theorem State.level_skew (s : State) (d : Descriptor) (b : Bool) (w : List Word) : (s.level d b w).skew = s.skew := by cases b <;> rfl

@[simp] theorem State.level_tables (s : State) (d : Descriptor) (b : Bool) (w : List Word) : (s.level d b w).tables = s.tables := by cases b <;> rfl

@[simp] theorem State.level_executor (s : State) (d : Descriptor) (b : Bool) (w : List Word) : (s.level d b w).executor = s.executor := by cases b <;> rfl

@[simp] theorem State.level_lastServed (s : State) (d : Descriptor) (b : Bool) (w : List Word) : (s.level d b w).lastServed = s.lastServed := by cases b <;> rfl

@[simp] theorem State.level_pending (s : State) (d : Descriptor) (b : Bool) (w : List Word) : (s.level d b w).pending = s.pending := by cases b <;> rfl

@[simp] theorem State.level_unit (s : State) (d : Descriptor) (b : Bool) (w : List Word) (side : Side) :
    (s.level d b w).unit side = s.unit side := by cases b <;> cases side <;> rfl

@[simp] theorem State.level_view (s : State) (d : Descriptor) (b : Bool) (w : List Word) (v : View) :
    (s.level d b w).view v = s.view v := by cases b <;> cases v <;> rfl

@[simp] theorem State.activate_faults (s : State) (d : Descriptor) (w : List Word) :
    (s.activate d w).faults = s.faults.becameActive s.now d w := rfl

@[simp] theorem State.deactivate_faults (s : State) (d : Descriptor) :
    (s.deactivate d).faults = s.faults.becameInactive d := rfl

@[simp] theorem State.raise_faults (s : State) (d : Descriptor) (w : List Word) :
    (s.raise d w).faults = s.faults.happened s.clock d w := rfl

end Sys2Proof.Machine
end

