-- ==== Sys2Proof/Laws/Channel.lean ====
section
/-! SUPPORT. What a command row does once the executor takes its command: the body's effect, then the answer. -/

namespace Sys2Proof.Machine

/-- A ready command stands at the head of its link's queue. -/
theorem ready_queue {s : State} {link : Side} {c : Command} (h : s.ready link c) :
    ∃ rest, (s.unit link).channel.queue = c :: rest := by
  obtain ⟨-, h⟩ := h
  unfold State.selected at h
  cases link <;> simp only [State.unit] <;> split at h <;> try (simp at h)
  all_goals first | (split at h <;> simp_all) | simp_all

/-- A command that is taken is carried out by its body, and answered. -/
theorem runCommand_ready {s : State} {link : Side} {c : Command} (h : s.ready link c)
    (body : State → Reply × State) :
    s.runCommand link c body =
      (body (s.takeCommand link)).2.respond link c (body (s.takeCommand link)).1 := by
  obtain ⟨rest, hq⟩ := ready_queue h
  have hd : s.deliver link c = s := by simp [State.deliver, hq]
  simp [State.runCommand, hd, State.takes, h.1, h.2]

/-- The same of a whole command row. -/
theorem command_ready {s : State} {t : Time} {link : Side} {k tag : Byte} {p : List Byte}
    (h : s.ready link ⟨tag, k, p⟩) (body : State → Reply × State) :
    s.command t link k tag p body =
      .next ((body ((s.advance t).takeCommand link)).2.respond link ⟨tag, k, p⟩
        (body ((s.advance t).takeCommand link)).1) := by
  unfold State.command
  rw [runCommand_ready (s := s.advance t) ⟨h.1, h.2⟩]

/-- A command whose body leaves the state alone is answered, and nothing else changes. -/
theorem respond_take (s : State) (link : Side) (c : Command) (st : Status) (p : List Byte) :
    (s.takeCommand link).respond link c ⟨st, p⟩ = s.answered link c st p := by
  cases link <;>
    simp [State.respond, State.takeCommand, State.answered, State.modChannel, State.modUnit,
      Executor.isResetPending]

end Sys2Proof.Machine
end

