-- ==== Sys2Proof/Laws/Faults.lean ====
section
/-! SUPPORT. The laws of the fault manager: sets of descriptors, what an occurrence does, and the fault log. -/

namespace Sys2Proof.Machine

/-! ### Sets of descriptors -/

theorem allDescriptors_index (d : Descriptor) : allDescriptors[d.index.val]? = some d := by
  cases d with
  | cam s k => cases s <;> cases k <;> rfl
  | view v k => cases v <;> cases k <;> rfl
  | disp s k => cases s <;> cases k <;> rfl
  | core k => cases k <;> rfl

/-- Two descriptors with the same index are the same. -/
theorem index_inj {d e : Descriptor} (h : d.index.val = e.index.val) : d = e :=
  Option.some.inj ((allDescriptors_index d).symm.trans ((congrArg (allDescriptors[·]?) h).trans (allDescriptors_index e)))

@[simp] theorem inSet_withD (m : BitVec 51) (d e : Descriptor) : inSet (withD m d) e = (inSet m e || decide (e = d)) := by
  simp only [inSet, withD, single, BitVec.getLsbD_or, BitVec.getLsbD_twoPow]
  by_cases h : e = d
  · subst h; simp [e.index.isLt]
  · have : d.index.val ≠ e.index.val := fun hi => h (index_inj hi).symm
    simp [h, this]

@[simp] theorem inSet_withoutD (m : BitVec 51) (d e : Descriptor) :
    inSet (withoutD m d) e = (inSet m e && !decide (e = d)) := by
  simp only [inSet, withoutD, single, BitVec.getLsbD_and, BitVec.getLsbD_not, BitVec.getLsbD_twoPow]
  by_cases h : e = d
  · subst h; simp [e.index.isLt]
  · have : d.index.val ≠ e.index.val := fun hi => h (index_inj hi).symm
    simp [h, this, e.index.isLt]

@[simp] theorem inSet_zero (d : Descriptor) : inSet 0 d = false := by simp [inSet]

@[simp] theorem inSet_and_not (m n : BitVec 51) (d : Descriptor) : inSet (m &&& ~~~n) d = (inSet m d && !inSet n d) := by
  simp [inSet, d.index.isLt]

/-! ### Occurrences -/

@[simp] theorem FaultManager.append_flags (fm : FaultManager) (t : Time) (d : Descriptor) (w : List Word) :
    (fm.append t d w).flags = fm.flags := by unfold FaultManager.append; split <;> rfl

@[simp] theorem FaultManager.append_enables (fm : FaultManager) (t : Time) (d : Descriptor) (w : List Word) :
    (fm.append t d w).enables = fm.enables := by unfold FaultManager.append; split <;> rfl

@[simp] theorem FaultManager.append_conditions (fm : FaultManager) (t : Time) (d : Descriptor) (w : List Word) :
    (fm.append t d w).conditions = fm.conditions := by unfold FaultManager.append; split <;> rfl

@[simp] theorem FaultManager.append_pulses (fm : FaultManager) (t : Time) (d : Descriptor) (w : List Word) :
    (fm.append t d w).pulses = fm.pulses := by unfold FaultManager.append; split <;> rfl

@[simp] theorem FaultManager.append_holdOff (fm : FaultManager) (t : Time) (d : Descriptor) (w : List Word) :
    (fm.append t d w).holdOff = fm.holdOff := by unfold FaultManager.append; split <;> rfl

@[simp] theorem FaultManager.occur_enables (fm : FaultManager) (t : Time) (d : Descriptor) (w : List Word) :
    (fm.occur t d w).enables = fm.enables := by unfold FaultManager.occur; split <;> simp

@[simp] theorem FaultManager.occur_conditions (fm : FaultManager) (t : Time) (d : Descriptor) (w : List Word) :
    (fm.occur t d w).conditions = fm.conditions := by unfold FaultManager.occur; split <;> simp

@[simp] theorem FaultManager.occur_pulses (fm : FaultManager) (t : Time) (d : Descriptor) (w : List Word) :
    (fm.occur t d w).pulses = fm.pulses := by unfold FaultManager.occur; split <;> simp

@[simp] theorem FaultManager.occur_holdOff (fm : FaultManager) (t : Time) (d : Descriptor) (w : List Word) :
    (fm.occur t d w).holdOff = fm.holdOff := by unfold FaultManager.occur; split <;> simp

/-- The flag of an occurrence's descriptor is set when its enable is, and no other flag changes (R123). -/
theorem FaultManager.occur_inSet_flags (fm : FaultManager) (t : Time) (d e : Descriptor) (w : List Word) :
    inSet (fm.occur t d w).flags e = (inSet fm.flags e || (decide (e = d) && inSet fm.enables d)) := by
  unfold FaultManager.occur
  split
  · rename_i h
    simp only [Bool.and_eq_true, Bool.not_eq_true'] at h
    simp [h.1]
  · rename_i h
    by_cases he : e = d
    · subst he
      cases h1 : inSet fm.enables e <;> cases h2 : inSet fm.flags e <;> simp_all
    · simp [he]

@[simp] theorem FaultManager.becameActive_enables (fm : FaultManager) (t : Time) (d : Descriptor) (w : List Word) :
    (fm.becameActive t d w).enables = fm.enables := by unfold FaultManager.becameActive; split <;> simp

@[simp] theorem FaultManager.becameActive_pulses (fm : FaultManager) (t : Time) (d : Descriptor) (w : List Word) :
    (fm.becameActive t d w).pulses = fm.pulses := by unfold FaultManager.becameActive; split <;> simp

@[simp] theorem FaultManager.becameActive_holdOff (fm : FaultManager) (t : Time) (d : Descriptor) (w : List Word) :
    (fm.becameActive t d w).holdOff = fm.holdOff := by unfold FaultManager.becameActive; split <;> simp

/-- A *became active* report sets its own condition copy alone (R119). -/
@[simp] theorem FaultManager.becameActive_inSet (fm : FaultManager) (t : Time) (d e : Descriptor) (w : List Word) :
    inSet (fm.becameActive t d w).conditions e = (inSet fm.conditions e || decide (e = d)) := by
  unfold FaultManager.becameActive
  split
  · rename_i h
    by_cases he : e = d
    · subst he; simp [h]
    · simp [he]
  · simp

@[simp] theorem FaultManager.becameInactive_inSet (fm : FaultManager) (d e : Descriptor) :
    inSet (fm.becameInactive d).conditions e = (inSet fm.conditions e && !decide (e = d)) := by
  simp [FaultManager.becameInactive]

@[simp] theorem FaultManager.becameInactive_flags (fm : FaultManager) (d : Descriptor) :
    (fm.becameInactive d).flags = fm.flags := rfl

@[simp] theorem FaultManager.becameInactive_enables (fm : FaultManager) (d : Descriptor) :
    (fm.becameInactive d).enables = fm.enables := rfl

@[simp] theorem FaultManager.becameInactive_pulses (fm : FaultManager) (d : Descriptor) :
    (fm.becameInactive d).pulses = fm.pulses := rfl

@[simp] theorem FaultManager.becameInactive_log (fm : FaultManager) (d : Descriptor) :
    (fm.becameInactive d).log = fm.log := rfl

@[simp] theorem FaultManager.happened_enables (fm : FaultManager) (c : Nat) (d : Descriptor) (w : List Word) :
    (fm.happened c d w).enables = fm.enables := by simp [FaultManager.happened]

@[simp] theorem FaultManager.happened_conditions (fm : FaultManager) (c : Nat) (d : Descriptor) (w : List Word) :
    (fm.happened c d w).conditions = fm.conditions := by simp [FaultManager.happened]

@[simp] theorem FaultManager.happened_holdOff (fm : FaultManager) (c : Nat) (d : Descriptor) (w : List Word) :
    (fm.happened c d w).holdOff = fm.holdOff := by simp [FaultManager.happened]

/-- A *happened* report starts its own pulse timer, to run for 500 ms, and no other (R121). -/
theorem FaultManager.happened_pulses (fm : FaultManager) (c : Nat) (d : Descriptor) (w : List Word) :
    (fm.happened c d w).pulses = fm.pulses.set d.index.val (some (c + Config.pulseTime)) d.index.isLt := by
  simp [FaultManager.happened]

/-- An event-only descriptor is active from its occurrence on. -/
@[simp] theorem FaultManager.happened_active (fm : FaultManager) (c : Nat) (d : Descriptor) (w : List Word) :
    (fm.happened c d w).active d = true := by
  simp [FaultManager.active, FaultManager.happened_pulses]

/-! ### The fault log -/

/-- A record stored at the tail keeps the log sound; a refused one leaves it (R136). -/
theorem FaultManager.append_sound {fm : FaultManager} (h : fm.sound) (t : Time) (d : Descriptor) (w : List Word) :
    (fm.append t d w).sound := by
  obtain ⟨h1, h2, h3⟩ := h
  unfold FaultManager.append
  split
  · rename_i hlt
    refine ⟨by simpa [Config.logLimit] using hlt, ?_, h3⟩
    intro i r hr
    simp only [List.length_append, List.length_singleton] at *
    rcases Nat.lt_trichotomy i fm.log.length with hi | hi | hi
    · rw [List.getElem?_append_left hi] at hr
      rw [h2 i r hr, show fm.log.length + 1 - i = (fm.log.length - i) + 1 by omega, BitVec.ofNat_add]
      exact (add_sub_add_right_eq_sub _ _ _).symm
    · rw [List.getElem?_append_right (by omega)] at hr
      simp only [hi, Nat.sub_self, List.getElem?_cons_zero, Option.some.injEq] at hr
      rw [← hr, hi, show fm.log.length + 1 - fm.log.length = 1 by omega]
      exact (add_sub_cancel_right _ _).symm
    · rw [List.getElem?_append_right (by omega)] at hr
      rw [List.getElem?_eq_none (by simp only [List.length_singleton]; omega)] at hr
      cases hr
  · exact ⟨h1, h2, h3⟩

/-- Flags, conditions, pulses, the hold-off timer and the lost count do not bear on the log's soundness. -/
theorem FaultManager.sound_of_eq {fm fm' : FaultManager} (h : fm.sound) (hl : fm'.log = fm.log)
    (hn : fm'.nextSequence = fm.nextSequence) (he : fm'.enables = fm.enables) : fm'.sound := by
  unfold FaultManager.sound
  rw [hl, hn, he]
  exact h

theorem FaultManager.occur_sound {fm : FaultManager} (h : fm.sound) (t : Time) (d : Descriptor) (w : List Word) :
    (fm.occur t d w).sound := by
  unfold FaultManager.occur
  split
  · apply FaultManager.append_sound; exact FaultManager.sound_of_eq h rfl rfl rfl
  · exact h

theorem FaultManager.becameActive_sound {fm : FaultManager} (h : fm.sound) (t : Time) (d : Descriptor)
    (w : List Word) : (fm.becameActive t d w).sound := by
  unfold FaultManager.becameActive
  split
  · exact h
  · apply FaultManager.occur_sound; exact FaultManager.sound_of_eq h rfl rfl rfl

theorem FaultManager.becameInactive_sound {fm : FaultManager} (h : fm.sound) (d : Descriptor) :
    (fm.becameInactive d).sound := FaultManager.sound_of_eq h rfl rfl rfl

theorem FaultManager.happened_sound {fm : FaultManager} (h : fm.sound) (c : Nat) (d : Descriptor) (w : List Word) :
    (fm.happened c d w).sound := by
  apply FaultManager.occur_sound; exact FaultManager.sound_of_eq h rfl rfl rfl

/-- READ_LOG keeps the log sound (R137). -/
theorem FaultManager.removeRecords_sound {fm : FaultManager} (h : fm.sound) (n : Nat) : (fm.removeRecords n).sound := by
  obtain ⟨h1, h2, h3⟩ := h
  refine ⟨by simp only [FaultManager.removeRecords, List.length_drop]; omega, ?_, h3⟩
  intro i r hr
  simp only [FaultManager.removeRecords, List.getElem?_drop, List.length_drop] at *
  rw [h2 _ r hr, Nat.sub_sub]

end Sys2Proof.Machine
end

