-- ==== Sys2Proof/Laws/Tables.lean ====
section
/-! SUPPORT. The laws of the table RAM and of reading with correction: a word read after a write, the canonical
form, and what a latch can do. -/

namespace Sys2Proof.Machine

/-! ### The canonical form -/

/-- A word as the RAM may list it at an address. -/
def listable (addr : Nat) (w : TableWord) : Prop := addr < Config.ramWords ∧ w.errors ≤ 2

theorem ramWf_cons (a : Nat) (w : TableWord) (rest : List (Nat × TableWord)) :
    ramWf ((a, w) :: rest) = true ↔
      (listable a w ∧ w ≠ TableWord.clean) ∧ (∀ e ∈ rest, a < e.1) ∧ ramWf rest = true := by
  simp only [ramWf, Bool.and_eq_true, decide_eq_true_eq, List.all_eq_true, listable, TableWord.errors]
  tauto

/-- The entries of a RAM after a write lie at the written address or where they lay before. -/
theorem mem_ramWrite {ram : List (Nat × TableWord)} {addr : Nat} {w : TableWord} {e : Nat × TableWord}
    (h : e ∈ ramWrite ram addr w) : e.1 = addr ∨ e ∈ ram := by
  induction ram with
  | nil =>
    simp only [ramWrite] at h
    split at h
    · cases h
    · simp only [List.mem_singleton] at h; exact .inl (by rw [h])
  | cons x rest ih =>
    obtain ⟨a, v⟩ := x
    simp only [ramWrite] at h
    split at h
    · rcases List.mem_cons.1 h with h | h
      · exact .inr (by simp [h])
      · rcases ih h with h | h
        · exact .inl h
        · exact .inr (by simp [h])
    · split at h
      · split at h
        · exact .inr (by simp [h])
        · rcases List.mem_cons.1 h with h | h
          · exact .inl (by rw [h])
          · exact .inr (by simp [h])
      · split at h
        · exact .inr h
        · rcases List.mem_cons.1 h with h | h
          · exact .inl (by rw [h])
          · exact .inr h

/-- A write of a listable word keeps the canonical form. -/
theorem ramWrite_wf {ram : List (Nat × TableWord)} {addr : Nat} {w : TableWord} (h : ramWf ram = true)
    (hw : listable addr w) : ramWf (ramWrite ram addr w) = true := by
  induction ram with
  | nil =>
    simp only [ramWrite]
    split
    · rfl
    · rw [ramWf_cons]; simp_all [ramWf]
  | cons x rest ih =>
    obtain ⟨a, v⟩ := x
    rw [ramWf_cons] at h
    obtain ⟨h1, h2, h3⟩ := h
    simp only [ramWrite]
    split
    · rename_i hlt
      rw [ramWf_cons]
      refine ⟨h1, ?_, ih h3⟩
      intro e he
      rcases mem_ramWrite he with h | h
      · omega
      · exact h2 e h
    · split
      · rename_i _ heq
        split
        · exact h3
        · rw [ramWf_cons]
          exact ⟨⟨hw, ‹_›⟩, fun e he => heq ▸ h2 e he, h3⟩
      · split
        · rw [ramWf_cons]; exact ⟨h1, h2, h3⟩
        · rw [ramWf_cons]
          refine ⟨⟨hw, ‹_›⟩, ?_, by rw [ramWf_cons]; exact ⟨h1, h2, h3⟩⟩
          intro e he
          rcases List.mem_cons.1 he with h | h
          · subst h; dsimp only; omega
          · have := h2 e h; omega

/-- An address below every listed one reads as the clean zero word. -/
theorem ramRead_of_lt {ram : List (Nat × TableWord)} {addr : Nat} (h : ∀ e ∈ ram, addr < e.1) :
    ramRead ram addr = TableWord.clean := by
  induction ram with
  | nil => rfl
  | cons x rest ih =>
    obtain ⟨a, v⟩ := x
    have ha := h (a, v) (by simp)
    have : a ≠ addr := by simp only at ha; omega
    simp only [ramRead, this, if_false]
    exact ih fun e he => h e (by simp [he])

/-- A word reads as it was written last. -/
theorem ramRead_ramWrite_same {ram : List (Nat × TableWord)} (h : ramWf ram = true) (addr : Nat) (w : TableWord) :
    ramRead (ramWrite ram addr w) addr = w := by
  induction ram with
  | nil =>
    simp only [ramWrite]
    split
    · simp_all [ramRead]
    · simp [ramRead]
  | cons x rest ih =>
    obtain ⟨a, v⟩ := x
    rw [ramWf_cons] at h
    obtain ⟨-, h2, h3⟩ := h
    simp only [ramWrite]
    split
    · have : a ≠ addr := by omega
      simp only [ramRead, this, if_false]
      exact ih h3
    · split
      · rename_i _ heq
        split
        · rename_i hc
          rw [hc]
          exact ramRead_of_lt fun e he => heq ▸ h2 e he
        · simp [ramRead]
      · split
        · rename_i hne hgt hc
          have : a ≠ addr := hgt
          simp only [ramRead, this, if_false, hc]
          exact ramRead_of_lt fun e he => by have := h2 e he; omega
        · simp [ramRead]

/-- A write leaves every other word as it was. -/
theorem ramRead_ramWrite_of_ne {ram : List (Nat × TableWord)} (h : ramWf ram = true) {addr other : Nat}
    (w : TableWord) (hne : other ≠ addr) : ramRead (ramWrite ram addr w) other = ramRead ram other := by
  induction ram with
  | nil =>
    simp only [ramWrite]
    split
    · rfl
    · simp [ramRead, Ne.symm hne]
  | cons x rest ih =>
    obtain ⟨a, v⟩ := x
    rw [ramWf_cons] at h
    obtain ⟨-, h2, h3⟩ := h
    simp only [ramWrite]
    split
    · simp only [ramRead]; rw [ih h3]
    · split
      · rename_i _ heq
        have ha : a ≠ other := by omega
        split
        · simp [ramRead, ha]
        · simp [ramRead, ha, Ne.symm hne]
      · split
        · rfl
        · simp [ramRead, Ne.symm hne]

/-- Every word of a canonical RAM differs in at most two bits from what was written (R156). -/
theorem errors_le_two {ram : List (Nat × TableWord)} (h : ramWf ram = true) (addr : Nat) :
    (ramRead ram addr).errors ≤ 2 := by
  induction ram with
  | nil => exact (by decide : TableWord.clean.errors ≤ 2)
  | cons x rest ih =>
    obtain ⟨a, v⟩ := x
    rw [ramWf_cons] at h
    simp only [ramRead]
    split
    · exact h.1.1.2
    · exact ih h.2.2

/-- A word with an error is listed, so its address is one of the 548. -/
theorem lt_of_errors {ram : List (Nat × TableWord)} (h : ramWf ram = true) {addr : Nat}
    (he : (ramRead ram addr).errors ≠ 0) : addr < Config.ramWords := by
  induction ram with
  | nil => exact absurd (by decide : TableWord.clean.errors = 0) he
  | cons x rest ih =>
    obtain ⟨a, v⟩ := x
    rw [ramWf_cons] at h
    simp only [ramRead] at he
    split at he
    · rename_i hcond; rw [← hcond]; exact h.1.1.1
    · exact ih h.2.2 he

/-- A freshly written word has no errors. -/
@[simp] theorem TableWord.fresh_errors (d : Word) : (TableWord.fresh d).errors = 0 := by
  simp [TableWord.errors, TableWord.fresh, List.countP_eq_zero]

/-- Every address of a kind's bank is one of the 548. -/
theorem ramAddress_lt {k : Kind} {off : Nat} (h : off < k.size) (b : Bank) :
    ramAddress k b off < Config.ramWords := by
  cases k <;> cases b <;> simp only [ramAddress, Kind.base, Kind.size, Config.bankWords, Config.ramWords] at * <;> omega

/-- The addresses of two words are equal only when kind, bank and offset are. -/
theorem ramAddress_inj {k k' : Kind} {b b' : Bank} {off off' : Nat} (h : off < k.size) (h' : off' < k'.size)
    (e : ramAddress k b off = ramAddress k' b' off') : k = k' ∧ b = b' ∧ off = off' := by
  cases k <;> cases k' <;> cases b <;> cases b' <;>
    simp only [ramAddress, Kind.base, Kind.size, Config.bankWords] at h h' e <;>
    first | (refine ⟨rfl, rfl, ?_⟩; omega) | (exfalso; omega)

/-! ### Kind records -/

@[simp] theorem TableStore.modKind_ram (ts : TableStore) (k : Kind) (f : KindRecord → KindRecord) :
    (ts.modKind k f).ram = ts.ram := rfl

@[simp] theorem TableStore.modKind_corruptions (ts : TableStore) (k : Kind) (f : KindRecord → KindRecord) :
    (ts.modKind k f).corruptions = ts.corruptions := rfl

@[simp] theorem TableStore.modKind_scrubPosition (ts : TableStore) (k : Kind) (f : KindRecord → KindRecord) :
    (ts.modKind k f).scrubPosition = ts.scrubPosition := rfl

@[simp] theorem TableStore.modKind_scrubDue (ts : TableStore) (k : Kind) (f : KindRecord → KindRecord) :
    (ts.modKind k f).scrubDue = ts.scrubDue := rfl

@[simp] theorem TableStore.modKind_kind_same (ts : TableStore) (k : Kind) (f : KindRecord → KindRecord) :
    (ts.modKind k f).kind k = f (ts.kind k) := by simp [TableStore.modKind, TableStore.kind]

theorem Kind.index_ne {j k : Kind} (h : j ≠ k) : j.index.val ≠ k.index.val := by
  revert h; cases j <;> cases k <;> simp [Kind.index, Kind.code]

theorem TableStore.modKind_kind_of_ne (ts : TableStore) {j k : Kind} (h : j ≠ k) (f : KindRecord → KindRecord) :
    (ts.modKind k f).kind j = ts.kind j := by
  simp only [TableStore.modKind, TableStore.kind]
  exact Vector.getElem_set_ne _ _ (Kind.index_ne h).symm

theorem TableStore.modKind_corruptions_kind_of_ne (ts : TableStore) {j k : Kind} (h : j ≠ k)
    (f : KindRecord → KindRecord) (l : List (Kind × Nat)) :
    ({ ts.modKind k f with corruptions := l } : TableStore).kind j = ts.kind j :=
  TableStore.modKind_kind_of_ne ts h f

theorem TableStore.modKind_corruptions_kind_same (ts : TableStore) (k : Kind) (f : KindRecord → KindRecord)
    (l : List (Kind × Nat)) : ({ ts.modKind k f with corruptions := l } : TableStore).kind k = f (ts.kind k) :=
  TableStore.modKind_kind_same ts k f

/-- A kind record depends on the kind records alone. -/
theorem TableStore.kind_congr {ts ts' : TableStore} (h : ts'.kinds = ts.kinds) (j : Kind) :
    ts'.kind j = ts.kind j := by simp only [TableStore.kind, h]

@[simp] theorem TableStore.writeWord_kind (ts : TableStore) (k j : Kind) (b : Bank) (off : Nat) (d : Word) :
    (ts.writeWord k b off d).kind j = ts.kind j := rfl

@[simp] theorem TableStore.writeWord_corruptions (ts : TableStore) (k : Kind) (b : Bank) (off : Nat) (d : Word) :
    (ts.writeWord k b off d).corruptions = ts.corruptions := rfl

@[simp] theorem TableStore.writeWord_kinds (ts : TableStore) (k : Kind) (b : Bank) (off : Nat) (d : Word) :
    (ts.writeWord k b off d).kinds = ts.kinds := rfl

@[simp] theorem TableStore.writeWord_scrubPosition (ts : TableStore) (k : Kind) (b : Bank) (off : Nat) (d : Word) :
    (ts.writeWord k b off d).scrubPosition = ts.scrubPosition := rfl

@[simp] theorem TableStore.writeWord_scrubDue (ts : TableStore) (k : Kind) (b : Bank) (off : Nat) (d : Word) :
    (ts.writeWord k b off d).scrubDue = ts.scrubDue := rfl

/-- A store keeps its canonical form when a word of a bank is written. -/
theorem TableStore.writeWord_wf {ts : TableStore} (h : ramWf ts.ram = true) {k : Kind} {off : Nat} (ho : off < k.size)
    (b : Bank) (d : Word) : ramWf (ts.writeWord k b off d).ram = true :=
  ramWrite_wf h ⟨ramAddress_lt ho b, by simp⟩

/-- A disturbance keeps the canonical form. -/
theorem TableStore.disturb_wf {ts : TableStore} (h : ramWf ts.ram = true) (u : Upset) :
    ramWf (ts.disturb u).ram = true := by
  simp only [TableStore.disturb]
  split
  · exact ramWrite_wf h ⟨u.addr.isLt, ‹_›⟩
  · exact h

/-- The words of a load stay inside the bank and keep the canonical form. -/
theorem TableStore.load_wf {k : Kind} (ws : List Word) {ts : TableStore} (h : ramWf ts.ram = true) {off : Nat}
    (ho : off + ws.length ≤ k.size) : ramWf (ts.load k off ws).ram = true := by
  induction ws generalizing ts off with
  | nil => exact h
  | cons w rest ih =>
    simp only [List.length_cons] at ho
    exact ih (TableStore.writeWord_wf h (by omega) _ _) (by omega)

/-- A load writes words and changes nothing else of the store. -/
theorem TableStore.load_rest {k : Kind} (ws : List Word) (ts : TableStore) (off : Nat) :
    (ts.load k off ws).kinds = ts.kinds ∧ (ts.load k off ws).corruptions = ts.corruptions ∧
      (ts.load k off ws).scrubPosition = ts.scrubPosition ∧ (ts.load k off ws).scrubDue = ts.scrubDue := by
  induction ws generalizing ts off with
  | nil => exact ⟨rfl, rfl, rfl, rfl⟩
  | cons w rest ih => exact ih _ _

/-! ### Reading with correction -/

/-- What reading one word can do (R156, R157): a clean word is answered; a single error is corrected, written back
and reported; a double error is answered by none, and in the live bank makes the kind CORRUPT. -/
theorem State.readWord_cases (s : State) (k : Kind) (b : Bank) (off : Nat) :
    ((s.tables.word k b off).errors = 0 ∧ s.readWord k b off = (some (s.tables.word k b off).data, s)) ∨
    ((s.tables.word k b off).errors = 1 ∧
      s.readWord k b off = (some (s.tables.word k b off).data,
        { s with tables := s.tables.writeWord k b off (s.tables.word k b off).data }.raise (.core .tableSec)
          (secDetail k b off))) ∨
    (2 ≤ (s.tables.word k b off).errors ∧
      s.readWord k b off = (none, if b = (s.tables.kind k).live then s.corruptKind k off else s)) := by
  simp only [State.readWord]
  by_cases h0 : (s.tables.word k b off).errors = 0
  · exact .inl ⟨h0, by simp [h0]⟩
  · by_cases h1 : (s.tables.word k b off).errors = 1
    · exact .inr (.inl ⟨h1, by simp [h1]⟩)
    · exact .inr (.inr ⟨by omega, by simp [h0, h1]⟩)

/-- A latch of a kind that is not usable takes the fallback without reading (R160). -/
theorem State.latch_not_usable {s : State} {k : Kind} (h : s.tables.usable k = false) (offs : List Nat) :
    s.latch k offs = (none, s) := by simp [State.latch, h]

end Sys2Proof.Machine
end

