-- ==== Sys2Proof/Laws/Moves.lean ====
section
/-! SUPPORT. What the shared operations can do, said once: each of them is a sequence of moves. A move changes
one side's blocks without touching its outline (ring states, view states, channel, the frame's treatment), sets one
of the two skew values, makes a report to the fault manager other than TABLE_DED's, or reads a table word. An
invariant that every move keeps is kept by every such operation. -/

namespace Sys2Proof.Machine

/-! ### The outline of a side -/

/-- The treatment and the developed mark of the frame in reception. -/
def Ingest.shape (i : Ingest) : Option (Treatment × Bool) := i.frame.map fun f => (f.treatment, f.developed)

/-- The part of a side that the invariants of rings, views and links look at. -/
structure Outline where
  main : List BufferStatus
  wide : List BufferStatus
  mainState : ViewState
  wideState : ViewState
  shape : Option (Treatment × Bool)
  channel : Link

/-- The outline of a side. -/
def SideUnit.outline (u : SideUnit) : Outline where
  main := u.main.ring.statuses
  wide := u.wide.ring.statuses
  mainState := u.main.state
  wideState := u.wide.state
  shape := u.ingest.shape
  channel := u.channel

/-! ### Moves -/

/-- The states that moves lead to from a state. -/
inductive Moves (a : State) : State → Prop
  | start : Moves a a
  | unit {s : State} (side : Side) (f : SideUnit → SideUnit)
      (h : (f (s.unit side)).outline = (s.unit side).outline) (m : Moves a s) : Moves a (s.modUnit side f)
  | latest {s : State} (v : Option Time) (m : Moves a s) : Moves a { s with latestStartL := v }
  | skew {s : State} (v : Option Word) (m : Moves a s) : Moves a { s with skew := v }
  | activate {s : State} (d : Descriptor) (w : List Word) (h : d ≠ .core .tableDed) (m : Moves a s) :
      Moves a (s.activate d w)
  | deactivate {s : State} (d : Descriptor) (h : d ≠ .core .tableDed) (m : Moves a s) : Moves a (s.deactivate d)
  | raise {s : State} (d : Descriptor) (w : List Word) (m : Moves a s) : Moves a (s.raise d w)
  | readWord {s : State} (k : Kind) (b : Bank) (off : Nat) (m : Moves a s) : Moves a (s.readWord k b off).2

/-- Moves after moves are moves. -/
theorem Moves.trans {a b c : State} (h : Moves a b) (h' : Moves b c) : Moves a c := by
  induction h' with
  | start => exact h
  | unit side f e _ ih => exact .unit side f e ih
  | latest v _ ih => exact .latest v ih
  | skew v _ ih => exact .skew v ih
  | activate d w e _ ih => exact .activate d w e ih
  | deactivate d e _ ih => exact .deactivate d e ih
  | raise d w _ ih => exact .raise d w ih
  | readWord k b off _ ih => exact .readWord k b off ih

variable {a s : State}

theorem Moves.level (d : Descriptor) (on : Bool) (w : List Word) (h : d ≠ .core .tableDed) (m : Moves a s) :
    Moves a (s.level d on w) := by
  cases on
  · exact .deactivate d h m
  · exact .activate d w h m

theorem Moves.modIngest (side : Side) (f : Ingest → Ingest)
    (h : (f (s.unit side).ingest).shape = (s.unit side).ingest.shape) (m : Moves a s) :
    Moves a (s.modIngest side f) := .unit side _ (by simp only [SideUnit.outline, h]) m

theorem Moves.setPass (side : Side) (p : Pass) (m : Moves a s) : Moves a (s.setPass side p) := .unit side _ rfl m

theorem Moves.modGlare (side : Side) (f : Glare → Glare) (m : Moves a s) : Moves a (s.modGlare side f) :=
  .unit side _ rfl m

theorem Moves.modComposer (side : Side) (f : Composer → Composer) (m : Moves a s) : Moves a (s.modComposer side f) :=
  .unit side _ rfl m

theorem Moves.modLight (side : Side) (f : Light → Light) (m : Moves a s) : Moves a (s.modLight side f) :=
  .unit side _ rfl m

theorem Moves.modSequencer (side : Side) (f : Sequencer → Sequencer) (m : Moves a s) :
    Moves a (s.modSequencer side f) := .unit side _ rfl m

theorem Moves.modBuffer (side : Side) (f : SelfTestBuffer → SelfTestBuffer) (m : Moves a s) :
    Moves a (s.modBuffer side f) := .unit side _ rfl m

theorem Moves.modRun (side : Side) (f : Run → Run) (m : Moves a s) : Moves a (s.modRun side f) :=
  .modSequencer side _ m

/-! ### Reading tables -/

theorem Moves.readWords (k : Kind) (b : Bank) (offs : List Nat) (m : Moves a s) :
    Moves a (s.readWords k b offs).2 := by
  induction offs generalizing s with
  | nil => exact m
  | cons off rest ih =>
    have h1 := Moves.readWord k b off m
    simp only [State.readWords]
    cases hr : s.readWord k b off with
    | mk d s1 =>
      rw [hr] at h1
      cases d with
      | none => exact h1
      | some d =>
        have h2 := ih h1
        dsimp only at h2 ⊢
        cases hw : s1.readWords k b rest with
        | mk r s2 =>
          rw [hw] at h2
          cases r <;> exact h2

theorem Moves.latch (k : Kind) (offs : List Nat) (m : Moves a s) : Moves a (s.latch k offs).2 := by
  unfold State.latch
  split
  · have h := Moves.readWords k (s.tables.kind k).live offs m
    cases hr : s.readWords k (s.tables.kind k).live offs with
    | mk r s1 =>
      rw [hr] at h
      cases r <;> exact h
  · exact m

theorem Moves.latchIngest (side : Side) (m : Moves a s) : Moves a (s.latchIngest side).2 := by
  unfold State.latchIngest
  exact .latch .timing _ (.latch _ _ m)

theorem Moves.latchCopies (side : Side) (m : Moves a s) : Moves a (s.latchCopies side).2 := by
  have h1 := Moves.latch side.profileKind (List.range side.profileKind.size) m
  unfold State.latchCopies
  generalize s.latch side.profileKind (List.range side.profileKind.size) = x1 at *
  obtain ⟨x1, s1⟩ := x1
  have h2 := Moves.latch .tone (List.range Kind.tone.size) h1
  dsimp only at h2 ⊢
  generalize s1.latch .tone (List.range Kind.tone.size) = x2 at *
  obtain ⟨x2, s2⟩ := x2
  have h3 := Moves.latch .view (List.range Kind.view.size) h2
  dsimp only at h3 ⊢
  generalize s2.latch .view (List.range Kind.view.size) = x3 at *
  obtain ⟨x3, s3⟩ := x3
  have h4 := Moves.latch .glare (List.range Kind.glare.size) h3
  dsimp only at h4 ⊢
  generalize s3.latch .glare (List.range Kind.glare.size) = x4 at *
  exact h4

/-! ### The self-test sequencer -/

theorem Moves.beginImmediate (side : Side) (m : Moves a s) : Moves a (s.beginImmediate side) := by
  have h := Moves.latchCopies side m
  unfold State.beginImmediate
  generalize s.latchCopies side = x at *
  exact .setPass _ _ h

theorem Moves.askSlot (side : Side) (m : Moves a s) : Moves a (s.askSlot side) := by
  unfold State.askSlot
  split
  · exact .beginImmediate side m
  · rename_i f hf
    exact .modIngest side _ (by simp [Ingest.shape, hf]) m

theorem Moves.abandonReference (side : Side) (m : Moves a s) : Moves a (s.abandonReference side) := by
  unfold State.abandonReference
  split
  · exact .setPass side _ m
  · exact m

theorem Moves.reaskSlot (side : Side) (m : Moves a s) : Moves a (s.reaskSlot side) := by
  unfold State.reaskSlot
  split
  · exact m
  · split
    · exact .askSlot side m
    · exact m

theorem Moves.askTransfer (side : Side) (x : Transfer) (m : Moves a s) : Moves a (s.askTransfer side x) :=
  .modBuffer side _ m

@[simp] theorem Ingest.sendRequest_shape (i : Ingest) (b : Bool) : (i.sendRequest b).shape = i.shape := rfl

@[simp] theorem Ingest.withdraw_frame (i : Ingest) : i.withdraw.frame = i.frame := by
  unfold Ingest.withdraw
  dsimp only
  split <;> rfl

@[simp] theorem Ingest.withdraw_shape (i : Ingest) : i.withdraw.shape = i.shape := by simp [Ingest.shape]

theorem Moves.releaseRun (side : Side) (m : Moves a s) : Moves a (s.releaseRun side) := by
  unfold State.releaseRun
  exact .modBuffer _ _ (.abandonReference _ (.modIngest _ _ (by simp [Ingest.shape]) m))

theorem Moves.endRun (side : Side) (m : Moves a s) : Moves a (s.endRun side) := by
  unfold State.endRun
  split
  · exact m
  · dsimp only
    split
    · exact .raise _ _ (.releaseRun _ (.modSequencer _ _ m))
    · exact .raise _ _ (.raise _ _ (.releaseRun _ (.modSequencer _ _ m)))

theorem Moves.latchReference (side : Side) (off : Nat) (m : Moves a s) : Moves a (s.latchReference side off).2 := by
  unfold State.latchReference
  exact .latch _ _ m

theorem Moves.beginLink (side : Side) (m : Moves a s) : Moves a (s.beginLink side).2 := by
  unfold State.beginLink
  split
  · exact m
  · exact .modRun side _ m

theorem Moves.beginIdent (side : Side) (m : Moves a s) : Moves a (s.beginIdent side).2 := by
  have h := Moves.latchReference side 0 m
  unfold State.beginIdent
  split
  · rename_i hr; rw [hr] at h; exact h
  · rename_i hr; rw [hr] at h; exact .modRun _ _ h

theorem Moves.beginPattern (side : Side) (m : Moves a s) : Moves a (s.beginPattern side).2 := by
  have h := Moves.latchReference side 9 m
  unfold State.beginPattern
  split
  · rename_i hr; rw [hr] at h; exact h
  · rename_i hr
    rw [hr] at h
    split
    · exact h
    · exact .modRun _ _ (.modIngest _ _ rfl h)

theorem Moves.beginDevelop (side : Side) (m : Moves a s) : Moves a (s.beginDevelop side).2 := by
  have h := Moves.latchReference side 9 m
  unfold State.beginDevelop
  split
  · rename_i hr; rw [hr] at h; exact h
  · rename_i hr; rw [hr] at h; exact .askSlot _ (.modRun _ _ h)

theorem Moves.beginStore (side : Side) (image : Option Picture) (m : Moves a s) :
    Moves a (s.beginStore side image).2 := by
  unfold State.beginStore
  split
  · exact .askTransfer _ _ (.modRun side _ m)
  · exact .askSlot _ (.modRun side _ m)

theorem Moves.beginStep (side : Side) (r : Run) (st : Step) (m : Moves a s) : Moves a (s.beginStep side r st).2 := by
  cases st <;> simp only [State.beginStep]
  · exact .beginLink side m
  · split
    · exact m
    · exact .beginIdent side m
  · split
    · exact m
    · exact .beginPattern side m
  · exact .beginDevelop side m
  · split
    · exact m
    · exact .beginStore side _ m

theorem Moves.beginNext (side : Side) (steps : List Step) (m : Moves a s) : Moves a (s.beginNext side steps) := by
  induction steps generalizing s with
  | nil => exact .endRun side m
  | cons st rest ih =>
    simp only [State.beginNext]
    split
    · exact m
    · rename_i r _
      split
      · have h := Moves.beginStep side r st m
        split
        · rename_i hb; rw [hb] at h; exact h
        · rename_i hb; rw [hb] at h; exact ih (.modSequencer _ _ h)
      · exact ih m

theorem Moves.settle (side : Side) (o : StepOutcome) (m : Moves a s) : Moves a (s.settle side o) := by
  unfold State.settle
  split
  · exact m
  · refine .beginNext side _ (.modSequencer side _ (.abandonReference side (.modIngest side _ ?_ m)))
    dsimp only
    split <;> simp [Ingest.shape]

theorem Moves.acceptedCompletion (side : Side) (id : Option Half) (m : Moves a s) :
    Moves a (s.acceptedCompletion side id) := by
  unfold State.acceptedCompletion
  split
  · exact m
  · split
    · exact .settle side _ m
    · exact .settle side _ m
    · exact m

theorem Moves.patternCompletion (side : Side) (signature : Half) (m : Moves a s) :
    Moves a (s.patternCompletion side signature) := by
  unfold State.patternCompletion
  split
  · exact m
  · split
    · exact .settle side _ m
    · exact m

theorem Moves.patternFrameStart (side : Side) (m : Moves a s) : Moves a (s.patternFrameStart side) := by
  unfold State.patternFrameStart
  split
  · exact m
  · split
    · dsimp only
      split
      · exact .settle _ _ (.modRun side _ m)
      · exact .modRun side _ m
    · exact m

theorem Moves.referenceDone (side : Side) (p : ReferencePass) (m : Moves a s) :
    Moves a (s.referenceDone side p) := by
  unfold State.referenceDone
  dsimp only
  split
  · exact .setPass side _ m
  · split
    · split
      · exact .settle _ _ (.modRun _ _ (.setPass _ _ m))
      · exact .askTransfer _ _ (.modRun _ _ (.modRun _ _ (.setPass _ _ m)))
    · exact .setPass side _ m

theorem Moves.stepTimeout (side : Side) (m : Moves a s) : Moves a (s.stepTimeout side) := .settle side _ m

theorem Moves.writeDone (side : Side) (ok : Bool) (m : Moves a s) : Moves a (s.writeDone side ok) := by
  unfold State.writeDone
  split
  · dsimp only
    split
    · split
      · exact .askTransfer _ _ (.modRun _ _ (.modBuffer side _ m))
      · exact .settle _ _ (.modBuffer side _ m)
    · exact .modBuffer side _ m
  · exact m

theorem Moves.readDone (side : Side) (data : Option Picture) (m : Moves a s) : Moves a (s.readDone side data) := by
  unfold State.readDone
  split
  · dsimp only
    split
    · split
      · exact .settle _ _ (.modBuffer side _ m)
      · exact .settle _ _ (.modBuffer side _ m)
    · exact .modBuffer side _ m
  · exact m

theorem Moves.lockLossInRun (side : Side) (m : Moves a s) : Moves a (s.lockLossInRun side) := by
  unfold State.lockLossInRun
  split
  · exact m
  · dsimp only
    split
    · exact .settle _ _ (.modSequencer _ _ m)
    · exact .settle _ _ (.modSequencer _ _ m)
    · exact .settle _ _ (.modSequencer _ _ m)
    · exact .reaskSlot _ (.modSequencer _ _ m)
    · exact .reaskSlot _ (.modSequencer _ _ m)

theorem Moves.startRun (side : Side) (selection : PerStep Bool) (m : Moves a s) :
    Moves a (s.startRun side selection) := by
  unfold State.startRun
  exact .beginNext _ _ (.modSequencer side _ m)

/-! ### Tracker and light -/

theorem Moves.clearTracker (side : Side) (m : Moves a s) : Moves a (s.clearTracker side) := by
  unfold State.clearTracker
  exact .deactivate _ (by simp) (.modGlare side _ m)

theorem Moves.trackerCompletion (side : Side) (map : List Bool) (m : Moves a s) :
    Moves a (s.trackerCompletion side map) := by
  unfold State.trackerCompletion
  exact .modGlare _ _ (.level _ _ _ (by simp) (.latch .glare _ m))

theorem Moves.telemetry (side : Side) (lux : Nat) (status : Byte) (m : Moves a s) :
    Moves a (s.telemetry side lux status) := by
  unfold State.telemetry
  exact .level _ _ _ (by simp) (.deactivate _ (by simp) (.modLight _ _ (.latch .timing _ m)))

theorem Moves.ambientLost (side : Side) (m : Moves a s) : Moves a (s.ambientLost side) := by
  unfold State.ambientLost
  exact .activate _ _ (by simp) (.modLight _ _ m)

theorem Moves.lightCompletion (side : Side) (scene : Nat) (m : Moves a s) :
    Moves a (s.lightCompletion side scene) := by
  unfold State.lightCompletion
  exact .modLight _ _ (.latch .light _ m)

theorem Moves.backlightStart (side : Side) (m : Moves a s) : Moves a (s.backlightStart side) := by
  unfold State.backlightStart
  exact .modLight _ _ (.latch .light _ m)

end Sys2Proof.Machine
end

