-- ==== Sys2Proof/Laws/Kept.lean ====
section
/-! SUPPORT. What every move keeps: time, modes and the executor, the outlines of both sides, and the soundness of
the table store, the corruption list and the fault log. -/

namespace Sys2Proof.Machine

/-! ### A kind becomes CORRUPT -/

@[simp] theorem State.corruptKind_unit (s : State) (k : Kind) (off : Nat) (side : Side) :
    (s.corruptKind k off).unit side = s.unit side := by
  unfold State.corruptKind
  split
  · rfl
  · dsimp only; split <;> cases side <;> rfl

/-- The tables after a kind became CORRUPT (R161). -/
theorem State.corruptKind_tables (s : State) (k : Kind) (off : Nat) :
    (s.corruptKind k off).tables =
      if (s.tables.kind k).corrupt then s.tables
      else { s.tables.modKind k (fun r => { r with corrupt := true }) with
        corruptions := s.tables.corruptions ++ [(k, off)] } := by
  unfold State.corruptKind
  split
  · rfl
  · dsimp only; split <;> rfl

/-- The fault manager after a kind became CORRUPT (R120). -/
theorem State.corruptKind_faults (s : State) (k : Kind) (off : Nat) :
    (s.corruptKind k off).faults =
      if (s.tables.kind k).corrupt = false ∧ s.tables.corruptions = [] then
        s.faults.becameActive s.now (.core .tableDed) [BitVec.ofNat 32 k.code, BitVec.ofNat 32 off]
      else s.faults := by
  unfold State.corruptKind
  cases h : (s.tables.kind k).corrupt
  · simp only [Bool.false_eq_true, if_false, true_and]
    split <;> rfl
  · simp

/-- Reading a word changes no block of a side. -/
@[simp] theorem State.readWord_unit (s : State) (k : Kind) (b : Bank) (off : Nat) (side : Side) :
    (s.readWord k b off).2.unit side = s.unit side := by
  rcases s.readWord_cases k b off with ⟨-, h⟩ | ⟨-, h⟩ | ⟨-, h⟩ <;> rw [h]
  · cases side <;> rfl
  · dsimp only; split
    · simp
    · rfl

/-- What no move changes: time, clearing, mode, executor, last served link and the queue of steps. -/
structure SameRest (a s : State) : Prop where
  clock : s.clock = a.clock
  clearing : s.clearing = a.clearing
  mode : s.mode = a.mode
  executor : s.executor = a.executor
  lastServed : s.lastServed = a.lastServed
  pending : s.pending = a.pending

theorem State.corruptKind_rest (s : State) (k : Kind) (off : Nat) : SameRest s (s.corruptKind k off) := by
  unfold State.corruptKind
  split
  · exact ⟨rfl, rfl, rfl, rfl, rfl, rfl⟩
  · dsimp only; split <;> exact ⟨rfl, rfl, rfl, rfl, rfl, rfl⟩

theorem State.readWord_rest (s : State) (k : Kind) (b : Bank) (off : Nat) : SameRest s (s.readWord k b off).2 := by
  rcases s.readWord_cases k b off with ⟨-, h⟩ | ⟨-, h⟩ | ⟨-, h⟩ <;> rw [h]
  · exact ⟨rfl, rfl, rfl, rfl, rfl, rfl⟩
  · exact ⟨rfl, rfl, rfl, rfl, rfl, rfl⟩
  · dsimp only; split
    · exact State.corruptKind_rest s k off
    · exact ⟨rfl, rfl, rfl, rfl, rfl, rfl⟩

variable {a s : State}

theorem Moves.rest (m : Moves a s) : SameRest a s := by
  induction m with
  | start => exact ⟨rfl, rfl, rfl, rfl, rfl, rfl⟩
  | unit side f h m ih => obtain ⟨h1, h2, h3, h4, h5, h6⟩ := ih; constructor <;> simpa
  | latest v m ih => obtain ⟨h1, h2, h3, h4, h5, h6⟩ := ih; constructor <;> simpa
  | skew v m ih => obtain ⟨h1, h2, h3, h4, h5, h6⟩ := ih; constructor <;> simpa
  | activate d w h m ih => obtain ⟨h1, h2, h3, h4, h5, h6⟩ := ih; constructor <;> simpa
  | deactivate d h m ih => obtain ⟨h1, h2, h3, h4, h5, h6⟩ := ih; constructor <;> simpa
  | raise d w m ih => obtain ⟨h1, h2, h3, h4, h5, h6⟩ := ih; constructor <;> simpa
  | readWord k b off m ih =>
    obtain ⟨h1, h2, h3, h4, h5, h6⟩ := ih
    obtain ⟨g1, g2, g3, g4, g5, g6⟩ := State.readWord_rest _ k b off
    exact ⟨g1.trans h1, g2.trans h2, g3.trans h3, g4.trans h4, g5.trans h5, g6.trans h6⟩

/-- No move changes the outline of a side. -/
theorem Moves.outline (m : Moves a s) (side : Side) : (s.unit side).outline = (a.unit side).outline := by
  induction m with
  | start => rfl
  | @unit s' t f h m ih =>
    by_cases hs : side = t
    · subst hs; rw [State.modUnit_unit_same, h, ih]
    · rw [State.modUnit_unit_of_ne _ hs, ih]
  | latest v m ih => cases side <;> exact ih
  | skew v m ih => cases side <;> exact ih
  | activate d w h m ih => simpa using ih
  | deactivate d h m ih => simpa using ih
  | raise d w m ih => simpa using ih
  | readWord k b off m ih => simpa using ih

/-! ### The table store -/

theorem State.corruptKind_tables_sound (h : s.tables.sound) (k : Kind) (off : Nat) :
    (s.corruptKind k off).tables.sound := by
  rw [State.corruptKind_tables]
  split
  · exact h
  · obtain ⟨h1, h2, h3⟩ := h
    refine ⟨h1, ?_, h3⟩
    intro j c hj
    by_cases hjk : j = k
    · subst hjk
      have : (s.tables.kind j).sync = some c := by
        simpa [TableStore.kind, TableStore.modKind] using hj
      exact h2 j c this
    · exact h2 j c ((congrArg _ (TableStore.modKind_corruptions_kind_of_ne s.tables hjk _ _)).symm.trans hj)

theorem State.readWord_tables_sound (h : s.tables.sound) (k : Kind) (b : Bank) (off : Nat) :
    (s.readWord k b off).2.tables.sound := by
  rcases s.readWord_cases k b off with ⟨-, e⟩ | ⟨h1, e⟩ | ⟨-, e⟩ <;> rw [e]
  · exact h
  · refine ⟨ramWrite_wf h.1 ⟨lt_of_errors h.1 (addr := ramAddress k b off) ?_, by simp⟩, h.2.1, h.2.2⟩
    exact fun h0 => by rw [TableStore.word] at h1; omega
  · dsimp only; split
    · exact State.corruptKind_tables_sound h k off
    · exact h

theorem Moves.tables_sound (m : Moves a s) (h : a.tables.sound) : s.tables.sound := by
  induction m with
  | start => exact h
  | unit side f e m ih => simpa using ih
  | latest v m ih => exact ih
  | skew v m ih => exact ih
  | activate d w e m ih => simpa using ih
  | deactivate d e m ih => simpa using ih
  | raise d w m ih => simpa using ih
  | readWord k b off m ih => exact State.readWord_tables_sound ih k b off

/-! ### The fault log -/

theorem State.corruptKind_faults_sound (h : s.faults.sound) (k : Kind) (off : Nat) :
    (s.corruptKind k off).faults.sound := by
  rw [State.corruptKind_faults]
  split
  · exact FaultManager.becameActive_sound h _ _ _
  · exact h

theorem State.readWord_faults_sound (h : s.faults.sound) (k : Kind) (b : Bank) (off : Nat) :
    (s.readWord k b off).2.faults.sound := by
  rcases s.readWord_cases k b off with ⟨-, e⟩ | ⟨-, e⟩ | ⟨-, e⟩ <;> rw [e]
  · exact h
  · exact FaultManager.happened_sound h _ _ _
  · dsimp only; split
    · exact State.corruptKind_faults_sound h k off
    · exact h

theorem Moves.faults_sound (m : Moves a s) (h : a.faults.sound) : s.faults.sound := by
  induction m with
  | start => exact h
  | unit side f e m ih => simpa using ih
  | latest v m ih => exact ih
  | skew v m ih => exact ih
  | activate d w e m ih => exact FaultManager.becameActive_sound ih _ _ _
  | deactivate d e m ih => exact FaultManager.becameInactive_sound ih _
  | raise d w m ih => exact FaultManager.happened_sound ih _ _ _
  | readWord k b off m ih => exact State.readWord_faults_sound ih k b off

/-! ### The corruption list and TABLE_DED -/

/-- The corruption list's soundness looks at the list, at each kind's health and at one condition copy. -/
theorem State.corruptionSound_of_eq {s' : State} (h : s.corruptionSound)
    (hl : s'.tables.corruptions = s.tables.corruptions)
    (hk : ∀ k, (s'.tables.kind k).corrupt = (s.tables.kind k).corrupt)
    (hc : inSet s'.faults.conditions (.core .tableDed) = inSet s.faults.conditions (.core .tableDed)) :
    s'.corruptionSound := by
  unfold State.corruptionSound TableStore.corruptKinds at *
  simpa only [hl, hk, hc] using h

theorem State.corruptKind_corruptionSound (h : s.corruptionSound) (k : Kind) (off : Nat) :
    (s.corruptKind k off).corruptionSound := by
  cases hc : (s.tables.kind k).corrupt
  · obtain ⟨h1, h2, h3⟩ := h
    have hnot : k ∉ s.tables.corruptKinds := fun hm => by rw [(h2 k).1 hm] at hc; cases hc
    have hkind : ∀ j, ((s.corruptKind k off).tables.kind j).corrupt =
        if j = k then true else (s.tables.kind j).corrupt := by
      intro j
      rw [State.corruptKind_tables, hc]
      by_cases hj : j = k
      · subst hj; simp [TableStore.kind, TableStore.modKind]
      · simp only [Bool.false_eq_true, if_false, hj]
        exact congrArg _ (TableStore.modKind_corruptions_kind_of_ne s.tables hj _ _)
    have hlist : (s.corruptKind k off).tables.corruptKinds = s.tables.corruptKinds ++ [k] := by
      rw [TableStore.corruptKinds, State.corruptKind_tables, hc]
      simp [TableStore.corruptKinds]
    refine ⟨?_, ?_, ?_⟩
    · rw [hlist]
      exact List.nodup_append.2 ⟨h1, by simp, by
        intro x hx y hy e; rw [List.mem_singleton] at hy; rw [e, hy] at hx; exact hnot hx⟩
    · intro j
      rw [hlist, hkind, List.mem_append, List.mem_singleton, h2 j]
      by_cases hj : j = k <;> simp [hj]
    · have hex : ∃ j, ((s.corruptKind k off).tables.kind j).corrupt = true := ⟨k, by rw [hkind]; simp⟩
      refine ⟨fun _ => hex, fun _ => ?_⟩
      rw [State.corruptKind_faults, hc]
      by_cases he : s.tables.corruptions = []
      · simp [he]
      · simp only [he, and_false, if_false]
        rw [h3]
        obtain ⟨x, hx⟩ := List.exists_mem_of_ne_nil _ he
        exact ⟨x.1, (h2 x.1).1 (List.mem_map.2 ⟨x, hx, rfl⟩)⟩
  · have : s.corruptKind k off = s := by unfold State.corruptKind; simp [hc]
    rw [this]; exact h

theorem State.readWord_corruptionSound (h : s.corruptionSound) (k : Kind) (b : Bank) (off : Nat) :
    (s.readWord k b off).2.corruptionSound := by
  rcases s.readWord_cases k b off with ⟨-, e⟩ | ⟨-, e⟩ | ⟨-, e⟩ <;> rw [e]
  · exact h
  · exact State.corruptionSound_of_eq h rfl (fun _ => rfl) (by simp)
  · dsimp only; split
    · exact State.corruptKind_corruptionSound h k off
    · exact h

theorem Moves.corruptionSound (m : Moves a s) (h : a.corruptionSound) : s.corruptionSound := by
  induction m with
  | start => exact h
  | unit side f e m ih => exact State.corruptionSound_of_eq ih (by simp) (by simp) (by simp)
  | latest v m ih => exact ih
  | skew v m ih => exact ih
  | activate d w e m ih => exact State.corruptionSound_of_eq ih (by simp) (by simp) (by simp [Ne.symm e])
  | deactivate d e m ih => exact State.corruptionSound_of_eq ih (by simp) (by simp) (by simp [Ne.symm e])
  | raise d w m ih => exact State.corruptionSound_of_eq ih (by simp) (by simp) (by simp)
  | readWord k b off m ih => exact State.readWord_corruptionSound ih k b off

end Sys2Proof.Machine
end

