-- ==== Sys2Proof/Laws/Rings.lean ====
section
/-! SUPPORT. The laws of the buffer rings: what each operation does to the states of the three buffers. -/

namespace Sys2Proof.Machine

variable {r : Ring}

/-- Whether a ring holds a buffer in a state, by the states of its buffers. -/
theorem Ring.has_iff (r : Ring) (st : BufferStatus) : r.has st = true ↔ st ∈ r.statuses := by
  simp only [Ring.has, Ring.statuses, Bool.or_eq_true, decide_eq_true_eq, List.mem_cons, List.not_mem_nil, or_false,
    or_assoc, @eq_comm _ st]

theorem Ring.has_eq_of_statuses {r r' : Ring} (h : r'.statuses = r.statuses) (st : BufferStatus) :
    r'.has st = r.has st := Bool.eq_iff_iff.2 (by rw [Ring.has_iff, Ring.has_iff, h])

theorem Ring.sound_of_statuses {r r' : Ring} (h : r'.statuses = r.statuses) (hs : r.sound) : r'.sound := by
  unfold Ring.sound at *; rw [h]; exact hs

/-- Changing the buffers in one state. -/
theorem Ring.onStatus_statuses (r : Ring) (st new : BufferStatus) (f : Buffer → Buffer)
    (hf : ∀ b, (f b).status = new) :
    (r.onStatus st f).statuses = r.statuses.map fun x => if x = st then new else x := by
  simp only [Ring.onStatus, Ring.mapBuffers, Ring.statuses, List.map_cons, List.map_nil]
  refine List.cons_eq_cons.2 ⟨?_, List.cons_eq_cons.2 ⟨?_, List.cons_eq_cons.2 ⟨?_, rfl⟩⟩⟩ <;>
    split <;> simp_all

theorem Ring.onStatus_statuses_keep (r : Ring) (st : BufferStatus) (f : Buffer → Buffer)
    (hf : ∀ b, (f b).status = b.status) : (r.onStatus st f).statuses = r.statuses := by
  simp only [Ring.onStatus, Ring.mapBuffers, Ring.statuses]
  refine List.cons_eq_cons.2 ⟨?_, List.cons_eq_cons.2 ⟨?_, List.cons_eq_cons.2 ⟨?_, rfl⟩⟩⟩ <;>
    split <;> simp_all

/-! ### The operations, by states -/

/-- The FILLING buffer becomes FREE (R52, R54). -/
@[simp] theorem Ring.freeFilling_statuses (r : Ring) :
    r.freeFilling.statuses = r.statuses.map fun x => if x = .filling then .free else x :=
  Ring.onStatus_statuses r _ _ _ fun _ => rfl

/-- Every buffer becomes FREE (R52). -/
@[simp] theorem Ring.freeAll_statuses (r : Ring) : r.freeAll.statuses = [.free, .free, .free] := rfl

@[simp] theorem Ring.setCounter_statuses (r : Ring) (c : Byte) : (r.setCounter c).statuses = r.statuses :=
  Ring.onStatus_statuses_keep r _ _ fun _ => rfl

@[simp] theorem Ring.writeRow_statuses (r : Ring) (w : Window) (rows y : Nat) (px : List Developed) :
    (r.writeRow w rows y px).statuses = r.statuses := Ring.onStatus_statuses_keep r _ _ fun _ => rfl

/-- A completion: an older READY buffer becomes FREE and the FILLING one READY; nothing happens to a ring with no
FILLING buffer (R51). -/
theorem Ring.makeReady_statuses (r : Ring) :
    r.makeReady.statuses = if r.has .filling = true then
      r.statuses.map (fun x => if x = .filling then .ready else if x = .ready then .free else x) else r.statuses := by
  unfold Ring.makeReady
  split
  · dsimp only
    rw [Ring.onStatus_statuses (new := .ready) (hf := fun _ => rfl)]
    split
    · rw [show ({ r.onStatus .ready Buffer.release with superseded := bump r.superseded 65535 } : Ring).statuses =
        (r.onStatus .ready Buffer.release).statuses from rfl,
        Ring.onStatus_statuses (new := .free) (hf := fun _ => rfl), List.map_map]
      refine List.map_congr_left fun x _ => ?_
      cases x <;> rfl
    · rename_i hr
      refine List.map_congr_left fun x hx => ?_
      have : x ≠ .ready := fun e => hr ((Ring.has_iff r .ready).2 (e ▸ hx))
      simp [this]
  · rfl

/-- The advance: a READY buffer becomes SHOWN and the old SHOWN one FREE (R53). -/
theorem Ring.advance_statuses (r : Ring) :
    r.advance.statuses = if r.has .ready = true then
      r.statuses.map (fun x => if x = .ready then .shown else if x = .shown then .free else x) else r.statuses := by
  unfold Ring.advance
  split
  · rw [Ring.onStatus_statuses (new := .shown) (hf := fun _ => rfl),
      Ring.onStatus_statuses (new := .free) (hf := fun _ => rfl), List.map_map]
    refine List.map_congr_left fun x _ => ?_
    cases x <;> rfl
  · rfl

/-- The FREE buffer with the lowest number becomes FILLING (R50). -/
theorem Ring.beginFilling_statuses (r : Ring) (rec : BufferRecord) :
    (r.beginFilling rec).statuses =
      if r.b0.status = .free then [.filling, r.b1.status, r.b2.status]
      else if r.b1.status = .free then [r.b0.status, .filling, r.b2.status]
      else if r.b2.status = .free then [r.b0.status, r.b1.status, .filling] else r.statuses := by
  unfold Ring.beginFilling
  dsimp only
  split
  · rfl
  · split
    · rfl
    · split <;> rfl

/-! ### Soundness (R49) -/

/-- Soundness by the three states. -/
theorem Ring.sound_iff (r : Ring) : r.sound ↔
    List.count .filling [r.b0.status, r.b1.status, r.b2.status] ≤ 1 ∧
    List.count .ready [r.b0.status, r.b1.status, r.b2.status] ≤ 1 ∧
    List.count .shown [r.b0.status, r.b1.status, r.b2.status] ≤ 1 := Iff.rfl

theorem Ring.freeFilling_sound (h : r.sound) : r.freeFilling.sound := by
  unfold Ring.sound at *
  rw [Ring.freeFilling_statuses]
  unfold Ring.statuses at *
  revert h
  generalize r.b0.status = x
  generalize r.b1.status = y
  generalize r.b2.status = z
  cases x <;> cases y <;> cases z <;> decide

theorem Ring.freeAll_sound (r : Ring) : r.freeAll.sound := by
  unfold Ring.sound
  rw [Ring.freeAll_statuses]
  decide

theorem Ring.makeReady_sound (h : r.sound) : r.makeReady.sound := by
  unfold Ring.sound at *
  rw [Ring.makeReady_statuses]
  split
  · unfold Ring.statuses at *
    revert h
    generalize r.b0.status = x
    generalize r.b1.status = y
    generalize r.b2.status = z
    cases x <;> cases y <;> cases z <;> decide
  · exact h

theorem Ring.advance_sound (h : r.sound) : r.advance.sound := by
  unfold Ring.sound at *
  rw [Ring.advance_statuses]
  split
  · unfold Ring.statuses at *
    revert h
    generalize r.b0.status = x
    generalize r.b1.status = y
    generalize r.b2.status = z
    cases x <;> cases y <;> cases z <;> decide
  · exact h

/-- A sound ring with no FILLING buffer has a FREE one, and stays sound when it becomes FILLING (R50). -/
theorem Ring.beginFilling_sound (h : r.sound) (hf : r.has .filling = false) (rec : BufferRecord) :
    (r.beginFilling rec).sound := by
  have hf' : ¬ BufferStatus.filling ∈ r.statuses := fun hm => by rw [(Ring.has_iff r _).2 hm] at hf; cases hf
  unfold Ring.sound at *
  rw [Ring.beginFilling_statuses]
  unfold Ring.statuses at *
  revert h hf'
  generalize r.b0.status = x
  generalize r.b1.status = y
  generalize r.b2.status = z
  cases x <;> cases y <;> cases z <;> decide

/-- A frame start finds a FREE buffer in a sound ring with no FILLING buffer (R50). -/
theorem Ring.beginFilling_has (h : r.sound) (hf : r.has .filling = false) (rec : BufferRecord) :
    (r.beginFilling rec).has .filling = true := by
  have hf' : ¬ BufferStatus.filling ∈ r.statuses := fun hm => by rw [(Ring.has_iff r _).2 hm] at hf; cases hf
  rw [Ring.has_iff, Ring.beginFilling_statuses]
  unfold Ring.sound Ring.statuses at *
  revert h hf'
  generalize r.b0.status = x
  generalize r.b1.status = y
  generalize r.b2.status = z
  cases x <;> cases y <;> cases z <;> decide

/-! ### Which states a ring holds afterwards -/

@[simp] theorem Ring.freeFilling_has_filling (r : Ring) : r.freeFilling.has .filling = false := by
  refine Bool.eq_false_iff.2 fun h => ?_
  rw [Ring.has_iff, Ring.freeFilling_statuses, List.mem_map] at h
  obtain ⟨x, -, hx⟩ := h
  cases x <;> simp at hx

@[simp] theorem Ring.freeFilling_has_shown (r : Ring) : r.freeFilling.has .shown = r.has .shown := by
  refine Bool.eq_iff_iff.2 ?_
  rw [Ring.has_iff, Ring.has_iff, Ring.freeFilling_statuses]
  unfold Ring.statuses
  generalize r.b0.status = x
  generalize r.b1.status = y
  generalize r.b2.status = z
  cases x <;> cases y <;> cases z <;> decide

@[simp] theorem Ring.freeAll_has_filling (r : Ring) : r.freeAll.has .filling = false := rfl

@[simp] theorem Ring.makeReady_has_filling (r : Ring) : r.makeReady.has .filling = false := by
  refine Bool.eq_false_iff.2 fun h => ?_
  rw [Ring.has_iff, Ring.makeReady_statuses] at h
  split at h
  · rw [List.mem_map] at h
    obtain ⟨x, -, hx⟩ := h
    cases x <;> simp at hx
  · rename_i hf; exact hf ((Ring.has_iff r _).2 h)

@[simp] theorem Ring.makeReady_has_shown (r : Ring) : r.makeReady.has .shown = r.has .shown := by
  refine Bool.eq_iff_iff.2 ?_
  rw [Ring.has_iff, Ring.has_iff, Ring.makeReady_statuses]
  split
  · unfold Ring.statuses
    generalize r.b0.status = x
    generalize r.b1.status = y
    generalize r.b2.status = z
    cases x <;> cases y <;> cases z <;> decide
  · rfl

@[simp] theorem Ring.advance_has_filling (r : Ring) : r.advance.has .filling = r.has .filling := by
  refine Bool.eq_iff_iff.2 ?_
  rw [Ring.has_iff, Ring.has_iff, Ring.advance_statuses]
  split
  · unfold Ring.statuses
    generalize r.b0.status = x
    generalize r.b1.status = y
    generalize r.b2.status = z
    cases x <;> cases y <;> cases z <;> decide
  · rfl

/-- After the advance a ring holds no READY buffer (R53). -/
@[simp] theorem Ring.advance_has_ready (r : Ring) : r.advance.has .ready = false := by
  refine Bool.eq_false_iff.2 fun h => ?_
  rw [Ring.has_iff, Ring.advance_statuses] at h
  split at h
  · rw [List.mem_map] at h
    obtain ⟨x, -, hx⟩ := h
    cases x <;> simp at hx
  · rename_i hf; exact hf ((Ring.has_iff r _).2 h)

/-- After the advance a ring holds a SHOWN buffer when it held a READY or a SHOWN one (R53). -/
@[simp] theorem Ring.advance_has_shown (r : Ring) : r.advance.has .shown = (r.has .ready || r.has .shown) := by
  refine Bool.eq_iff_iff.2 ?_
  rw [Bool.or_eq_true, Ring.has_iff, Ring.has_iff, Ring.has_iff, Ring.advance_statuses]
  split
  · rename_i hr
    rw [Ring.has_iff] at hr
    unfold Ring.statuses at *
    revert hr
    generalize r.b0.status = x
    generalize r.b1.status = y
    generalize r.b2.status = z
    cases x <;> cases y <;> cases z <;> decide
  · rename_i hr
    rw [Ring.has_iff] at hr
    tauto

@[simp] theorem Ring.beginFilling_has_shown (r : Ring) (rec : BufferRecord) :
    (r.beginFilling rec).has .shown = r.has .shown := by
  refine Bool.eq_iff_iff.2 ?_
  rw [Ring.has_iff, Ring.has_iff, Ring.beginFilling_statuses]
  unfold Ring.statuses
  generalize r.b0.status = x
  generalize r.b1.status = y
  generalize r.b2.status = z
  cases x <;> cases y <;> cases z <;> decide

end Sys2Proof.Machine
end

