-- ==== Sys2Proof/Tests/Slice0.lean ====
section
/-! SUPPORT. Tests. Expected results come from the spec's worked examples and tables, or are worked out by hand from
the rule named; witnesses show that the hypotheses of the statements can be met together. -/

open Sys2Proof Sys2Proof.Machine

namespace Sys2Proof.Machine

/-- A state with a kind record changed. -/
def State.withKind (s : State) (k : Kind) (f : KindRecord → KindRecord) : State :=
  { s with tables := s.tables.modKind k f }

/-- A state in RUN. -/
def State.running (s : State) : State := { s with mode := .run }

/-- A state with the table RAM disturbed. -/
def State.upset (s : State) (a : Fin 548) (b : Fin 39) : State := s.disturbAll [⟨a, b⟩]

end Sys2Proof.Machine

namespace Sys2Proof.Tests

set_option Elab.async false

/-! ### Helpers -/

/-- The state that a step answers; the state before where it answers none. -/
def after (i : Instr) (s : State) : State :=
  match exec i s with
  | .next s' => s'
  | .fault _ => s
  | .refused _ => s

/-- The part after the clearing of the table RAM. -/
def idle : State := { State.reset with clearing := false, tables := { State.reset.tables with scrubDue := some 50 } }

/-- The same with a command in the queue of a link. -/
def asking (link : Side) (c : Command) : State := idle.modChannel link fun l => { l with queue := [c] }

/-- A frame record. -/
def frameOf (tr : Treatment) (next : Nat) (developed : Bool) : FrameRecord :=
  ⟨0, tr, developed, none, none, next, 0, ⟨0, true, 8, 0⟩, ⟨10000, 40000, 200⟩, 0xFFFF, [], true⟩

/-- Camera L is LOCKED, with or without a frame in reception. -/
def locked (f : Option FrameRecord) : State := idle.modIngest .left fun i => { i with link := .locked, frame := f }

/-- A run in progress on the left. -/
def testing (st : Step) (due : Option Nat) : State :=
  idle.modSequencer .left fun q =>
    { q with run := some { Run.start ⟨true, true, true, true, true⟩ with step := st, timerDue := due } }

/-- The left receiver holds what has come of a packet. -/
def collecting (len : Nat) (buffer : List Byte) (due : Option Nat) : State :=
  idle.setReceiver .left (.collecting len buffer due)

/-- A command in the queue of a link whose executor is IDLE is taken. -/
theorem asking_ready (link : Side) (c : Command) : (asking link c).ready link c := by
  cases link <;> exact ⟨rfl, rfl⟩

/-! ### Well-formedness and decoding -/

theorem test_embedded_line_too_short : wellFormed (.embeddedLine 0 .left true []) = false := by decide +kernel

theorem test_active_line_too_short : wellFormed (.activeLine 0 .left 1 true [1, 2]) = false := by decide +kernel

theorem test_active_line_index_zero :
    wellFormed (.activeLine 0 .left 0 true (List.replicate 1920 0)) = false := by decide +kernel

theorem test_pulse_of_a_condition : wellFormed (.pulseExpiry 0 (.cam .left .silent)) = false := by decide +kernel

theorem test_read_back_of_a_short_picture :
    wellFormed (.storeReadDone 0 .left (some [[⟨0, 0, 0⟩]])) = false := by decide +kernel

theorem test_param_too_long : wellFormed (.echo 0 .left 0 (List.replicate 61 0)) = false := by decide +kernel

theorem test_bad_kind_of_a_command : wellFormed (.badKindCommand 0 .left 0 0x10 []) = false := by decide +kernel

theorem test_bad_kind_of_telemetry : wellFormed (.badKindCommand 0 .left 0 0x70 []) = false := by decide +kernel

theorem test_well_formed_command : wellFormed (.echo 0 .left 0 (List.replicate 60 0)) = true := by decide +kernel

theorem test_no_word_decodes : decodeTableWord 0 0 = none := by decide +kernel

/-! ### Worked examples of the spec -/

/-- CRC-16 of the nine ASCII digits "123456789" is 0x29B1 (spec 00, CRC-16). -/
theorem test_crc_check_value : crc16 [0x31, 0x32, 0x33, 0x34, 0x35, 0x36, 0x37, 0x38, 0x39] = 0x29B1 := by decide +kernel

/-- A map with one bit in its seventh byte is the map of RESET_SEEN, index 50 (R211). -/
theorem test_reset_seen_map : mapBytes (single (.core .resetSeen)) = [0, 0, 0, 0, 0, 0, 4] := by decide +kernel

/-- The floor of a negative half: floor((−3)/2) is −2 (R87). -/
theorem test_velocity_floor : newVelocity (-4) 1 = -2 := by decide +kernel

/-- A slew down of 96 brings 256 to a target of 64 in two completions (R94). -/
theorem test_ramp_down :
    let f : TrackerGlare := ⟨true, true, 0, 0, 0, 0, 0, 0, 64, 96, 48, 1⟩
    rampToward f (rampToward f 256 64) 64 = 64 ∧ rampToward f 256 64 = 160 := by decide +kernel

/-- The region sample positions run u 21, 64, 106 … 1258 and v 12, 38, 64 … 499 (R149). -/
theorem test_region_positions :
    regionColumns.take 3 = [21, 64, 106] ∧ regionColumns.getLast? = some 1258 ∧ regionRows.take 3 = [12, 38, 64] ∧
      regionRows.getLast? = some 499 := by decide +kernel

/-- Bank B of TIMING lies at addresses 536..547 (R156). -/
theorem test_timing_bank_b : ramAddress .timing .bankB 0 = 536 ∧ ramAddress .timing .bankB 11 = 547 := by decide +kernel

/-- A generation of 65535 wraps to 1 (R159). -/
theorem test_generation_wraps : nextGeneration 65535 = 1 ∧ nextGeneration 0 = 1 := by decide +kernel

/-- An L-MAIN pan at s = 40 with limits 0..600 and 0..700: (500, 100) is applied as (320, 100), and (300, 660) as
(300, 640) (R58). -/
theorem test_pan_example :
    panOrigin .leftMain ⟨40, 0, 600, 0, 700⟩ 500 100 = (320, 100) ∧
      panOrigin .leftMain ⟨40, 0, 600, 0, 700⟩ 300 660 = (300, 640) := by decide +kernel

/-- An all-zero bank of POLICY is valid, a profile fails at word 1 and TIMING at word 0 (R176). -/
theorem test_zero_banks :
    firstInvalid .policy [] = none ∧ firstInvalid .cameraL [] = some 1 ∧ firstInvalid .timing [] = some 0 := by
  decide +kernel

/-- The fallback curve gives its knots' levels at its knots (R39, R45). -/
theorem test_fallback_curve :
    interpolate fallbackCurve 0 = 0 ∧ interpolate fallbackCurve 32768 = 32 ∧
      interpolate fallbackCurve 1048575 = 1023 := by decide +kernel

/-- The code of the reference frame at (1, 2) is 5 (R47). -/
theorem test_reference_code : referenceCode 1 2 = 5 ∧ referenceCode 1919 1279 = 381 := by decide +kernel

/-- The longest response carries 240 bytes and is 246 bytes long (R188, R194). -/
theorem test_longest_response : (Response.bytes ⟨1, 0x90, 0, List.replicate 240 0⟩).length = 246 := by
  decide +kernel

/-! ### One step each -/

/-- The first frame start measures no period (R21). -/
theorem test_first_frame_start_has_no_period :
    (after (.frameStart 1000 .left) (locked none)).left.ingest.lastPeriod = none := by decide +kernel

/-- The second one measures the difference of the stamps (R21). -/
theorem test_second_frame_start_has_a_period :
    (after (.frameStart 17667 .left) (after (.frameStart 1000 .left) (locked none))).left.ingest.lastPeriod =
      some 16667 := by decide +kernel

/-- A LEN of 3 is refused and a LEN of 4 begins a packet (R180). -/
theorem test_len_bounds :
    (after (.returnLaneByte 9 .left 3) idle).left.channel.receiver = .waitLen ∧
      (after (.returnLaneByte 9 .left 4) idle).left.channel.receiver = .collecting 4 [] (some 20009) := by
  decide +kernel

/-- Five commands on one link: the fifth is discarded (R185). -/
theorem test_fifth_command_is_discarded :
    let s := idle.modChannel .left fun l => { l with queue := List.replicate 4 ⟨1, 2, []⟩ }
    (s.acceptCommand .left ⟨9, 2, []⟩).left.channel.discards = 1 := by decide +kernel

/-- The backlight falls by 8 toward a lower target and stops at it (R114). -/
theorem test_slew : slew 512 100 = 504 ∧ slew 105 100 = 100 ∧ slew 1023 1023 = 1023 := by decide +kernel

/-- The steps that need no state: power-on keeps the steps that wait. -/
theorem test_power_on_keeps_the_queue :
    (after .powerOn { idle with pending := [.powerOn] }).pending = [.powerOn] := by decide +kernel

/-! ### Witnesses: the machine and the executor -/

theorem witness_step : ({ idle with pending := [.powerOn] } : State).pending = .powerOn :: [] ∧ idle.pending = [] :=
  ⟨rfl, rfl⟩

theorem witness_echo :
    (asking .left ⟨1, 0x01, [7]⟩).ready .left ⟨1, 0x01, [7]⟩ ∧ (asking .right ⟨1, 0x01, []⟩).ready .right ⟨1, 0x01, []⟩ ∧
      (asking .left ⟨1, 0x05, []⟩).ready .left ⟨1, 0x05, []⟩ ∧ (asking .left ⟨1, 0x06, [0]⟩).ready .left ⟨1, 0x06, [0]⟩ :=
  ⟨asking_ready _ _, asking_ready _ _, asking_ready _ _, asking_ready _ _⟩

theorem witness_get_status : (asking .right ⟨1, 0x02, []⟩).ready .right ⟨1, 0x02, []⟩ := asking_ready _ _

/-- ENTER_RUN: in RUN, with kinds missing, and with the five kinds usable. -/
theorem witness_enter_run :
    let c : Command := ⟨1, 0x03, []⟩
    let good := fun r : KindRecord => { r with generation := 1 }
    let s := (((((asking .left c).withKind .cameraL good).withKind .cameraR good).withKind .view good).withKind .tone
      good).withKind .timing good
    (asking .left c).running.ready .left c ∧ (asking .left c).ready .left c ∧ s.ready .left c ∧
      s.tables.usable .timing = true ∧ s.tables.usable .cameraL = true ∧ s.mode = .config :=
  ⟨⟨rfl, rfl⟩, ⟨rfl, rfl⟩, ⟨rfl, rfl⟩, by decide +kernel, by decide +kernel, rfl⟩

/-- ENTER_CONFIG: in CONFIG, in RUN, and in RUN with a self-test run in progress. -/
theorem witness_enter_config :
    let c : Command := ⟨1, 0x04, []⟩
    let run := (asking .left c).running.modSequencer .right fun q =>
      { q with run := some (Run.start ⟨true, true, true, true, true⟩) }
    ((asking .left c).ready .left c ∧ (asking .left c).mode = .config) ∧
      ((asking .left c).running.ready .left c ∧ (asking .left c).running.mode = .run) ∧
      run.ready .left c ∧ run.mode = .run ∧ run.right.sequencer.run.isSome = true :=
  ⟨⟨⟨rfl, rfl⟩, rfl⟩, ⟨⟨rfl, rfl⟩, rfl⟩, ⟨rfl, rfl⟩, rfl, rfl⟩

/-- ENTER_CONFIG ends a run in progress, whose steps not settled become OMITTED (R153). -/
theorem test_enter_config_ends_a_run :
    let run := idle.running.modSequencer .right fun q =>
      { q with run := some (Run.start ⟨false, true, true, true, true⟩) }
    let s := after (.enterConfig 9 .left 1 []) run
    s.mode = .config ∧ s.right.sequencer.run = none ∧
      s.right.sequencer.last = ⟨.notSelected, .omitted, .omitted, .omitted, .omitted⟩ := by decide +kernel

/-- The executor takes a command, leaves one while the other link is served, and takes one that brings its packet. -/
theorem witness_executor :
    let i : Instr := .echo 5 .left 1 [7]
    let both := (asking .left ⟨1, 0x01, [7]⟩).modChannel .right fun l => { l with queue := [⟨2, 0x02, []⟩] }
    let left := { both with lastServed := .left }
    idle.executor = .idle ∧ commandOf i = some (5, .left, ⟨1, 0x01, [7]⟩) ∧ (left.unit .left).channel.queue ≠ [] ∧
      left.selected ≠ some (.left, ⟨1, 0x01, [7]⟩) ∧ (idle.unit .left).channel.queue = [] ∧ idle.clearing = false ∧
      (idle.unit .left).channel.responses.length < 8 := by decide +kernel

theorem witness_bad_kinds_and_params :
    (commandOf (.badKindCommand 5 .left 1 0x99 []) = some (5, .left, ⟨1, 0x99, []⟩) ∧
      (asking .left ⟨1, 0x99, []⟩).ready .left ⟨1, 0x99, []⟩ ∧ (0x99 : Byte) ∉ commandCodes) ∧
    (commandOf (.readLog 5 .left 1 [5]) = some (5, .left, ⟨1, 0x33, [5]⟩) ∧
      (asking .left ⟨1, 0x33, [5]⟩).ready .left ⟨1, 0x33, [5]⟩ ∧ paramAllowed ⟨1, 0x33, [5]⟩ = false ∧
      (0x33 : Byte) ∈ commandCodes) :=
  ⟨⟨by decide +kernel, asking_ready _ _, by decide +kernel⟩, by decide +kernel, asking_ready _ _, by decide +kernel, by decide +kernel⟩

/-! ### Witnesses: table commands -/

/-- LOAD_TABLE at the last word of VIEW: locked, SYNCING, and written; and with the longest list of bytes. -/
theorem witness_load_table :
    let data : List Byte := [1, 2, 3, 4]
    let c : Command := ⟨1, 0x10, [2, 31, 1, 2, 3, 4]⟩
    let s := asking .left c
    4 ≤ data.length ∧ (31 : Byte).toNat < Kind.view.size ∧ (List.replicate 58 (0 : Byte)).length ≤ 58 ∧
      (s.withKind .view fun r => { r with locked := true }).ready .left c ∧
      (s.withKind .view fun r => { r with sync := some ⟨0, 0⟩ }).ready .left c ∧ s.ready .left c ∧
      (s.tables.kind .view).locked = false ∧ (s.tables.kind .view).sync = none ∧ ramWf s.tables.ram = true :=
  ⟨by decide +kernel, by decide +kernel, by decide +kernel, ⟨rfl, rfl⟩, ⟨rfl, rfl⟩, ⟨rfl, rfl⟩, by decide +kernel,
    by decide +kernel, by decide +kernel⟩

/-- A LOAD_TABLE of one word into the shadow of VIEW: the first byte is the least significant (R162). -/
theorem test_load_table_writes_a_word :
    ((after (.loadTable 9 .left 1 [2, 31, 1, 2, 3, 4]) idle).tables.word .view .bankB 31).data = 0x04030201 := by
  decide +kernel

/-- A COMMIT_TABLE of the all-zero POLICY bank succeeds (R176): its hypotheses. -/
theorem witness_commit_table :
    let ws := idle.tables.corrected .policy .bankB (List.range Kind.policy.size)
    let crc := crc16 (ws.flatMap fun e => bytes4 e.2.toNat)
    let c : Command := ⟨1, 0x11, [6, crc.truncate 8, (crc >>> 8).truncate 8]⟩
    (asking .left c).ready .left c ∧ (idle.tables.kind .policy).live.other = .bankB ∧
      idle.tables.firstDouble .policy .bankB (List.range Kind.policy.size) = none ∧
      firstInvalid .policy ws = none ∧ crc = (crc >>> 8).truncate 8 ++ crc.truncate 8 :=
  ⟨asking_ready _ _, by decide +kernel, by decide +kernel, by decide +kernel, by decide +kernel⟩

/-- The refusals of COMMIT_TABLE: a double error in the shadow, a wrong CRC, and the invalid word 0 of an all-zero
TIMING bank under its right CRC. -/
theorem witness_commit_refusals :
    let ws := idle.tables.corrected .timing .bankB (List.range Kind.timing.size)
    let crc := crc16 (ws.flatMap fun e => bytes4 e.2.toNat)
    let c : Command := ⟨1, 0x11, [7, crc.truncate 8, (crc >>> 8).truncate 8]⟩
    let c' : Command := ⟨1, 0x11, [7, 0, 0]⟩
    let s := ((asking .left c).upset 547 0).upset 547 38
    (s.ready .left c ∧ s.tables.firstDouble .timing .bankB (List.range 12) = some 11) ∧
      ((asking .left c').ready .left c' ∧ crc ≠ 0) ∧ (asking .left c).ready .left c ∧
      firstInvalid .timing ws = some 0 :=
  ⟨⟨⟨rfl, rfl⟩, by decide +kernel⟩, ⟨asking_ready _ _, by decide +kernel⟩, asking_ready _ _, by decide +kernel⟩

/-- READ_TABLE of the last word of TIMING: the shadow of a SYNCING kind, the live bank, and a double error. -/
theorem witness_read_table :
    let c : Command := ⟨1, 0x12, [7, 1, 11, 14]⟩
    let d : Command := ⟨1, 0x12, [7, 0, 11, 1]⟩
    let busy := (asking .left c).withKind .timing fun r => { r with sync := some ⟨0, 0⟩ }
    let bad := ((asking .left d).upset 273 0).upset 273 38
    busy.ready .left c ∧ (asking .left c).ready .left c ∧ (asking .left d).ready .left d ∧ bad.ready .left d ∧
      bad.tables.firstDouble .timing .bankA [11] = some 11 ∧ (11 : Byte).toNat < Kind.timing.size :=
  ⟨⟨rfl, rfl⟩, asking_ready _ _, asking_ready _ _, ⟨rfl, rfl⟩, by decide +kernel, by decide +kernel⟩

theorem witness_table_status_and_lock :
    (asking .left ⟨1, 0x13, []⟩).ready .left ⟨1, 0x13, []⟩ ∧
      (asking .left ⟨1, 0x14, [BitVec.ofNat 8 Kind.timing.code]⟩).ready .left
        ⟨1, 0x14, [BitVec.ofNat 8 Kind.timing.code]⟩ := ⟨asking_ready _ _, asking_ready _ _⟩

/-! ### Witnesses: view, light, fault and self-test commands -/

theorem witness_set_pan :
    (asking .left ⟨1, 0x20, [3, 255, 255, 0, 0]⟩).ready .left ⟨1, 0x20, [3, 255, 255, 0, 0]⟩ := asking_ready _ _

theorem witness_force_light : (asking .left ⟨1, 0x21, [1, 2]⟩).ready .left ⟨1, 0x21, [1, 2]⟩ := asking_ready _ _

theorem witness_get_glare : (asking .left ⟨1, 0x22, [1]⟩).ready .left ⟨1, 0x22, [1]⟩ := asking_ready _ _

theorem witness_get_timing : (asking .left ⟨1, 0x23, []⟩).ready .left ⟨1, 0x23, []⟩ := asking_ready _ _

theorem witness_get_events : (asking .left ⟨1, 0x30, []⟩).ready .left ⟨1, 0x30, []⟩ := asking_ready _ _

theorem witness_clear_events :
    let m : BitVec 51 := BitVec.allOnes 51
    m ≠ 0 ∧ (asking .left ⟨1, 0x31, mapBytes m⟩).ready .left ⟨1, 0x31, mapBytes m⟩ :=
  ⟨by decide +kernel, asking_ready _ _⟩

theorem witness_set_event_enable :
    let m : BitVec 51 := single (.core .resetSeen)
    m ≠ 0 ∧ inSet m (.core .resetSeen) = true ∧
      (asking .left ⟨1, 0x32, mapBytes m ++ mapBytes m⟩).ready .left ⟨1, 0x32, mapBytes m ++ mapBytes m⟩ :=
  ⟨by decide +kernel, by decide +kernel, asking_ready _ _⟩

theorem witness_read_log :
    (asking .left ⟨1, 0x33, [1]⟩).ready .left ⟨1, 0x33, [1]⟩ ∧
      (asking .left ⟨1, 0x33, [4]⟩).ready .left ⟨1, 0x33, [4]⟩ := ⟨asking_ready _ _, asking_ready _ _⟩

/-- START_SELFTEST: in CONFIG, on a RUNNING side, with a fail flag set, and begun with the link LOCKED. -/
theorem witness_start_selftest :
    let all : PerStep Bool := ⟨true, true, true, true, true⟩
    let c : Command := ⟨1, 0x40, [0, 31]⟩
    let s := (asking .left c).running
    let run := s.modSequencer .left fun q => { q with run := some (Run.start all) }
    let blocked := s.modSequencer .left fun q => { q with failFlags := ⟨false, false, false, false, true⟩ }
    let begun := s.modIngest .left fun i => { i with link := .locked }
    all.stepBits = 31 ∧ (asking .left c).ready .left c ∧ run.ready .left c ∧ blocked.ready .left c ∧
      blocked.left.sequencer.failFlags.stepBits ≠ 0 ∧ begun.ready .left c ∧ begun.left.ingest.link = .locked :=
  ⟨rfl, ⟨rfl, rfl⟩, ⟨rfl, rfl⟩, ⟨rfl, rfl⟩, by decide +kernel, ⟨rfl, rfl⟩, rfl⟩

theorem witness_abort_selftest :
    let c : Command := ⟨1, 0x41, [0]⟩
    let run := (asking .left c).modSequencer .left fun q => { q with run := some (Run.start ⟨true, true, true, true, true⟩) }
    (asking .left c).ready .left c ∧ run.ready .left c ∧ run.left.sequencer.run.isSome = true :=
  ⟨⟨rfl, rfl⟩, ⟨rfl, rfl⟩, rfl⟩

theorem witness_get_and_clear_selftest :
    (asking .left ⟨1, 0x42, [0]⟩).ready .left ⟨1, 0x42, [0]⟩ ∧
      (asking .left ⟨1, 0x43, [1]⟩).ready .left ⟨1, 0x43, [1]⟩ := ⟨asking_ready _ _, asking_ready _ _⟩

/-! ### Witnesses: resets and the camera link -/

/-- TABLE_CLEAR_END at 2000 µs, before it, and when there is no clearing. -/
theorem witness_table_clear_end :
    (State.reset.clearing = true ∧ (State.reset.advance 2000).clock = 2000) ∧
      (State.reset.advance 1999).clock < 2000 ∧ idle.clearing = false := by decide +kernel

theorem witness_soft_reset_instant :
    let s : State := { idle with executor := .resetPending .left }
    let answered : Response := ⟨1, 0x85, 0, []⟩
    let waiting := s.modChannel .left fun l => { l with responses := [answered] }
    s.executor = .resetPending .left ∧ (s.unit .left).channel.responses = [] ∧
      (waiting.unit .left).channel.responses ≠ [] ∧ idle.executor = .idle ∧
      (∀ k ∈ allKinds, (s.tables.kind k).sync = none) ∧ (s.tables.word .timing .bankA 2).errors = 0 ∧
      (s.tables.word .view .bankA 24).errors = 0 ∧ s.tables.sound := by
  refine ⟨rfl, rfl, by decide +kernel, rfl, by decide +kernel, by decide +kernel, by decide +kernel, by decide +kernel, ?_,
    by decide +kernel⟩
  intro k c h; cases k <;> cases h

/-- A soft reset cures no CORRUPT kind, completes a sync copy with the live data, and arms the silent timer with the
timeout of a usable TIMING (R24, R177). -/
theorem test_soft_reset_keeps_the_tables :
    let s := (({ idle with executor := .resetPending .left } : State).withKind .view fun r =>
      { r with generation := 1, corrupt := true }).withKind .timing fun r =>
        { r with generation := 1, sync := some ⟨0, 0⟩ }
    let s' := after (.softResetInstant 7) { s with tables := s.tables.writeWord .timing .bankA 2 50 }
    (s'.tables.kind .view).corrupt = true ∧ (s'.tables.kind .timing).sync = none ∧
      (s'.tables.word .timing .bankB 2).data = 50 ∧ s'.left.ingest.silentDue = some 50007 := by decide +kernel

/-- A link in NO_SIGNAL; and one LOCKED: with no frame, with one to abort and one discarded, and with no frame in each
step of a run. -/
theorem witness_link_lost_and_lock :
    let testing := fun st => (testing st (some 9)).modIngest .left fun i => { i with link := .locked }
    ((idle.unit .left).ingest.link = .noSignal ∧ ((locked none).unit .left).ingest.link = .locked) ∧
      ((locked (some (frameOf .slot 7 true))).unit .left).ingest.frame = some (frameOf .slot 7 true) ∧
      ((locked (some (frameOf .stalled 1 true))).unit .left).ingest.frame = some (frameOf .stalled 1 true) ∧
      ∀ st ∈ allSteps,
        ((testing st).unit .left).ingest.link = .locked ∧ ((testing st).unit .left).ingest.frame = none ∧
          ((testing st).unit .left).sequencer.run.map (·.step) = some st := by decide +kernel

/-- A frame start with a frame in reception, to be aborted or discarded; after a stamp, at both ends of the displays'
window and outside it; and the fourth one of a PATTERN step. -/
theorem witness_frame_start_cases :
    let s := (locked (some (frameOf .accepted 9 true))).modIngest .left fun i => { i with prevStart := some 1000 }
    let fourth := (testing .pattern (some 9)).modRun .left fun r => { r with startsSeen := 3 }
    (s.unit .left).ingest.frame = some (frameOf .accepted 9 true) ∧ (frameOf .stalled 1 true).treatment = .stalled ∧
      (s.unit .left).ingest.prevStart = some 1000 ∧ ((16000 : Time) - 1000).toNat = 15000 ∧
      ((21000 : Time) - 1000).toNat = 20000 ∧ ((21001 : Time) - 1000).toNat = 20001 ∧
      (fourth.unit .left).sequencer.run.map (fun r => (r.step, r.startsSeen)) = some (.pattern, 3) ∧
      (idle.latch .cameraL [0, 1]).1 = none ∧
      ((idle.withKind .cameraL fun r => { r with generation := 1 }).latch .cameraL [0, 1]).1 = some [(0, 0), (1, 0)] := by
  decide +kernel

/-- The fourth frame start of a PATTERN step fails it (R146). -/
theorem test_fourth_frame_start_fails_pattern :
    let s := ((testing .pattern (some 9)).modRun .left fun r => { r with startsSeen := 3 }).modIngest .left fun i =>
      { i with link := .locked }
    (after (.frameStart 8 .left) s).left.sequencer.failFlags = ⟨false, false, true, false, false⟩ := by decide +kernel

/-- A frame start in LOCKED, first and with a previous stamp; and in RUN with a FREE buffer in each ring. -/
theorem witness_frame_start :
    let s := (locked none).running
    (s.unit .left).ingest.link = .locked ∧ s.mode = .run ∧ (s.unit .left).ingest.frame = none ∧
      (s.unit .left).main.ring.has .free = true ∧ (s.unit .left).main.ring.has .filling = false ∧
      (s.unit .left).wide.ring.has .free = true ∧ (s.unit .left).wide.ring.has .filling = false := by decide +kernel

theorem witness_embedded_line :
    let s := locked (some (frameOf .undecided 0 true))
    (s.unit .left).ingest.link = .locked ∧ (s.unit .left).ingest.frame = some (frameOf .undecided 0 true) := by
  decide +kernel

/-- A SLOT frame turns the camera pass into a PACED pass with its copies, the DAY curve and no zones; a PATTERN frame
leaves no pass (R27, R46). -/
theorem test_slot_and_pattern_frames :
    let w := { (idle.latchCopies .left).1 with zones := [⟨0, 0, 63, 63, 128⟩] }
    let s := (locked (some (frameOf .undecided 0 true))).setPass .left (.camera (CameraPass.fresh w))
    let slot := s.modIngest .left fun i => { i with slotHeld := true }
    let pattern := s.modIngest .left fun i => { i with patternPending := true }
    (after (.embeddedLine 9 .left true []) slot).left.pass =
        .reference ⟨{ w with curve := w.dayCurve, zones := [] }, .paced, 0xFFFF, []⟩ ∧
      (after (.embeddedLine 9 .left true [0, 0, 0, 1]) pattern).left.pass = .idle := by decide +kernel

/-- The cases of a wrong line: no frame, UNDECIDED, discarded, after the last line, and before it. -/
theorem witness_wrong_lines :
    (idle.unit .left).ingest.frame = none ∧
      ((locked (some (frameOf .undecided 0 false))).unit .left).ingest.frame = some (frameOf .undecided 0 false) ∧
      (frameOf .stalled 1 true).treatment = .stalled ∧ (frameOf .accepted 1281 true).nextLine = 1281 ∧
      (frameOf .slot 1280 true).nextLine ≠ 1281 := by decide +kernel

/-- A run that asks for a slot again, in IDLE and in RECEIVING, and one that does not. -/
theorem witness_reask_slot :
    let s := testing .develop (some 9)
    let t := s.setFrame .left (some (frameOf .accepted 3 true))
    s.left.sequencer.run.map (fun r => (r.step, r.timerDue)) = some (.develop, some 9) ∧ s.left.pass = .idle ∧
      s.left.ingest.slotHeld = false ∧ s.left.ingest.frame = none ∧
      t.left.ingest.frame = some (frameOf .accepted 3 true) ∧
      (testing .link (some 9)).left.sequencer.run.map (·.step) = some .link := by decide +kernel

/-- An expected line at both ends of the frame: within the limit, and beyond a limit of 0 when it is check-bad. -/
theorem witness_active_line :
    let first := frameOf .accepted 1 false
    let last := frameOf .pattern 1280 true
    let slot := frameOf .slot 33 true
    ((locked (some first)).unit .left).ingest.frame = some first ∧ first.nextLine = 1 ∧
      ((locked (some last)).unit .left).ingest.frame = some last ∧ last.nextLine = 1280 ∧
      ((locked (some slot)).unit .left).ingest.frame = some slot ∧ slot.nextLine = 33 ∧
      first.profile.lineErrorLimit < first.concealed + 1 ∧ first.concealed ≤ first.profile.lineErrorLimit := by
  decide +kernel

theorem witness_frame_end :
    let f := frameOf .accepted 1281 true
    let s := locked (some f)
    let camera := s.setPass .left (.camera (CameraPass.fresh (s.latchCopies .left).1))
    (s.unit .left).ingest.link = .locked ∧ (s.unit .left).ingest.frame = some f ∧ f.nextLine = 1281 ∧
      f.treatment = .accepted ∧ f.developed = true ∧ camera.left.ingest.frame = some f ∧
      camera.left.pass = .camera (CameraPass.fresh (s.latchCopies .left).1) ∧
      (frameOf .slot 1281 true).treatment = .slot ∧ (frameOf .pattern 1281 true).treatment = .pattern := by
  decide +kernel

/-- The frame end of an accepted developed frame hands over the FILLING buffer with its picture, over an old READY
one, and the SHOWN one stands (R50, R51). -/
theorem test_completion_hands_the_picture_over :
    let px : Picture := [[]]
    let ring : Ring := ⟨{ status := .ready }, { status := .filling, picture := px }, { status := .shown }, 0⟩
    let s := (locked (some (frameOf .accepted 1281 true))).modView .leftMain fun u => { u with ring := ring }
    ((after (.frameEnd 9 .left) s).view .leftMain).ring =
      ⟨{}, { status := .ready, picture := px }, { status := .shown }, 1⟩ := by decide +kernel

/-- An accepted completion passes LINK, and the next selected step begins; in IDENT with another camera ID it fails it
(R144, R145). -/
theorem test_completion_judges_link_and_ident :
    let during := fun st reference =>
      (((testing st (some 9)).modRun .left fun r => { r with reference := reference }).modIngest .left fun i =>
        { i with link := .locked, frame := some (frameOf .accepted 1281 false) })
    let run := fun s : State => s.left.sequencer.run.map fun r => (r.outcomes.link, r.outcomes.ident)
    run (after (.frameEnd 8 .left) (during .link none)) = some (some .pass, some .omitted) ∧
      (after (.frameEnd 8 .left) (during .ident (some 7))).left.sequencer.failFlags.ident = true := by decide +kernel

/-! ### Witnesses: timers, reports and transfers -/

/-- Each timer at the instant it runs out, and the instant before. -/
theorem witness_timers :
    let lit := idle.modLight .left fun l => { l with ambientDue := some 900 }
    let held := { idle with faults := { idle.faults with holdOff := some 700 } }
    (idle.left.ingest.silentDue = some 200000 ∧ (idle.advance 200000).clock = 200000 ∧
      (idle.advance 199999).clock < 200000) ∧
    (lit.left.light.ambientDue = some 900 ∧ (lit.advance 900).clock = 900 ∧ idle.left.light.ambientDue = none) ∧
    (idle.faults.pulses[50] = some 500000 ∧ (idle.advance 500000).clock = 500000 ∧ idle.faults.pulses[0] = none) ∧
    (held.faults.holdOff = some 700 ∧ (held.advance 700).clock = 700 ∧ idle.faults.holdOff = none) := by decide +kernel

/-- A report of a condition that is active, and of one that is not, and a full log. -/
theorem witness_reports :
    inSet idle.faults.conditions (.cam .left .linkLost) = true ∧
      inSet idle.faults.conditions (.cam .left .silent) = false ∧
      inSet idle.faults.enables (.cam .left .silent) = true ∧ inSet idle.faults.flags (.cam .left .silent) = false ∧
      idle.faults.log.length < 32 ∧ ¬ (List.replicate 32 (0 : Nat)).length < 32 := by decide +kernel

theorem witness_ddr_transfers :
    let filling := idle.modView .leftWide fun u => { u with ring := u.ring.beginFilling ⟨0, none, .day, 0, 0⟩ }
    let reading := idle.modView .leftWide fun u => { u with region := some (.reading [] true) }
    (filling.view .leftWide).ring.has .filling = true ∧ (idle.view .leftWide).ring.has .filling = false ∧
      (reading.view .leftWide).region = some (.reading [] true) ∧ (idle.view .leftWide).region = none ∧
      287 < View.leftWide.rows ∧ 511 < View.rightMain.rows := by decide +kernel

/-- The camera-unavailable tile of a WIDE view begins at column 608 and row 112 of its region with its white frame, and
is black inside it (R67). -/
theorem test_unavailable_tile :
    lostPixel .leftWide 608 112 = greyPixel 1023 ∧ lostPixel .leftWide 607 112 = greyPixel 128 ∧
      lostPixel .leftWide 612 130 = greyPixel 0 ∧ lostPixel .leftWide 671 176 = greyPixel 128 := by decide +kernel

/-- An IMMEDIATE pass at its end, of a DEVELOP step, of a STORE step, and of no run. -/
theorem witness_reference_pass :
    let p : ReferencePass :=
      ⟨⟨devProfileFallback, fallbackCurve, fallbackCurve, .fallback, 0, windowFallback .leftMain,
        windowFallback .leftWide, devGlareFallback, []⟩, .immediate 100, 0xFFFF, []⟩
    ((idle.setPass .left (.reference p)).unit .left).pass = .reference p ∧ p.pacing = .immediate 100 ∧
      (idle.advance 12100).clock = 100 + 12000 ∧ (idle.advance 12099).clock < 100 + 12000 ∧
      idle.left.sequencer.run = none ∧ ((testing .develop (some 9)).unit .left).sequencer.run.isSome = true ∧
      ((testing .store (some 9)).left.sequencer.run.map Run.obtaining) = some true ∧
      ((testing .store none).left.sequencer.run.map Run.obtaining) = some false := by decide +kernel

theorem witness_settled_step :
    let s := testing .develop (some 2000)
    s.left.sequencer.run.isSome = true ∧ s.left.sequencer.run.map (·.timerDue) = some (some 2000) ∧
      (s.advance 2000).clock = 2000 ∧ (s.advance 1999).clock < 2000 ∧
      (∀ st ∈ allSteps, (s.left.sequencer.run.map fun r => r.selection.get st) = some true) ∧
      (Run.start ⟨true, false, false, false, false⟩).selection.get .ident = false := by decide +kernel

theorem witness_store_transfers :
    let s := fun x : Transfer => (testing .store none).askTransfer .left x
    (s (.write [] true)).left.buffer.transfers = .write [] true :: [] ∧
      (s (.read false)).left.buffer.transfers = .read false :: [] ∧
      (s (.read true)).left.buffer.transfers = .read true :: [] ∧
      (s (.read true)).left.sequencer.run.isSome = true ∧ idle.left.buffer.transfers = [] := by decide +kernel

/-! ### Witnesses: the table RAM -/

/-- A kind that is not usable, a usable one without errors, and a usable one with a double error in its last word. -/
theorem witness_latches :
    let s := idle.withKind .timing fun r => { r with generation := 1 }
    let bad := (s.upset 273 0).upset 273 1
    idle.tables.usable .timing = false ∧ s.tables.usable .timing = true ∧
      s.tables.firstDouble .timing .bankA [0, 1, 11] = none ∧
      bad.tables.firstDouble .timing .bankA [0, 1, 11] = some 11 ∧ [0, 1, 11].Nodup ∧
      (s.withKind .timing fun r => { r with corrupt := true }).tables.usable .timing = false := by decide +kernel

/-- The last word of a sync copy in its microsecond, before it, and with one and two wrong bits. -/
theorem witness_sync_word_copy :
    let s := idle.withKind .timing fun r => { r with sync := some ⟨100, 11⟩ }
    (s.tables.kind .timing).sync = some ⟨100, 11⟩ ∧ (s.advance 112).clock = 100 + 11 + 1 ∧
      (s.advance 111).clock ≤ 100 + 11 ∧ (s.tables.word .timing .bankA 11).errors = 0 ∧
      ((s.upset 273 0).tables.word .timing .bankA 11).errors = 1 ∧
      (((s.upset 273 0).upset 273 1).tables.word .timing .bankA 11).errors = 2 ∧
      (idle.tables.kind .timing).sync = none := by decide +kernel

/-- A due visit at the last live address before the position goes round: with every live bank A, position 274 leads to
word 0 of CAMERA_L, at distance 274. -/
theorem witness_scrub_visit :
    let s : State := { idle with tables := { idle.tables with scrubPosition := 274 } }
    s.tables.scrubDue = some 50 ∧ s.tables.scrubPosition < 548 ∧ ramWf s.tables.ram = true ∧ (s.advance 50).clock = 50 ∧
      (s.advance 49).clock < 50 ∧ State.reset.tables.scrubDue = none ∧
      (∀ k ∈ allKinds, ∀ off ∈ List.range k.size,
        (ramAddress .cameraL (s.tables.kind .cameraL).live 0 + 548 - 274) % 548 ≤
          (ramAddress k (s.tables.kind k).live off + 548 - 274) % 548) := by decide +kernel

/-! ### Witnesses: the channel -/

/-- The receiver's cases: the clearing, a LEN at each bound, a byte before the last, and the timer at its instant. -/
theorem witness_receiver :
    State.reset.clearing = true ∧ idle.left.channel.receiver = .waitLen ∧
      (4 : Byte).toNat = 4 ∧ (64 : Byte).toNat = 64 ∧ (65 : Byte).toNat = 65 ∧
      (collecting 4 [1, 2] (some 20)).left.channel.receiver = .collecting 4 [1, 2] (some 20) ∧
      ((collecting 4 [1, 2] (some 20)).advance 20).clock = 20 ∧
      ((collecting 4 [1, 2] (some 20)).advance 19).clock < 20 := by decide +kernel

/-- A complete ECHO packet of one byte with its CRC, and with a wrong one. -/
theorem witness_packet :
    let param : List Byte := [7]
    let crc := crc16 (BitVec.ofNat 8 (4 + param.length) :: 1 :: 0x01 :: param)
    let lo : Byte := crc.truncate 8
    let hi : Byte := (crc >>> 8).truncate 8
    (collecting (4 + param.length) (1 :: 0x01 :: param ++ [lo]) none).left.channel.receiver =
        .collecting (4 + param.length) (1 :: 0x01 :: param ++ [lo]) none ∧
      crc = hi ++ lo ∧ crc ≠ (hi + 1) ++ lo ∧ param.length ≤ 60 := by decide +kernel

/-- A complete telemetry packet: 300 lux, status 0; and one whose PARAM has another length. -/
theorem witness_telemetry :
    let param : List Byte := [44, 1, 0]
    let crc := crc16 (BitVec.ofNat 8 (4 + param.length) :: 1 :: 0x70 :: param)
    let short := crc16 (BitVec.ofNat 8 (4 + 0) :: 1 :: 0x70 :: [])
    crc = (crc >>> 8).truncate 8 ++ crc.truncate 8 ∧ short = (short >>> 8).truncate 8 ++ short.truncate 8 ∧
      (collecting 7 (1 :: 0x70 :: param ++ [crc.truncate 8]) none).left.channel.receiver =
        .collecting 7 (1 :: 0x70 :: param ++ [crc.truncate 8]) none := by decide +kernel

/-- The same telemetry packet reaches the light controller (R100, R102). -/
theorem test_telemetry_sets_the_ambient :
    let crc := crc16 [7, 1, 0x70, 44, 1, 0]
    let s := collecting 7 [1, 0x70, 44, 1, 0, crc.truncate 8] none
    let l := (after (.returnLaneByte 9 .left ((crc >>> 8).truncate 8)) s).left.light
    l.ambient = 300 ∧ l.known = true ∧ l.ambientDue = some 500009 := by decide +kernel

/-! ### Witnesses: the output frame start -/

/-- An output frame start at its instant, before it, and a tracking start at the end of the displays' window. -/
theorem witness_output_frame_start :
    let c : Composer :=
      { idle.left.composer with
        timing := .tracking, prevOut := some 1000, pendingEnd := some 19000, nextOut := 21000
        latched := ⟨true, 16667, 2000⟩ }
    idle.left.composer.nextOut = 16667 ∧ (idle.advance 16667).clock = 16667 ∧ (idle.advance 16666).clock < 16667 ∧
      c.timing = .tracking ∧ max (19000 + c.latched.lead) (1000 + 15000) ≤ 1000 + 20000 ∧
      idle.tables.usable .timing = false ∧
      (idle.withKind .timing fun r => { r with generation := 1 }).tables.usable .timing = true ∧
      (idle.tables.word .timing .bankA 3).errors < 2 := by decide +kernel

/-- A view's cases: CONFIG; in RUN LIVE with a new buffer, and LOST. -/
theorem witness_views_turn :
    let buffer : Buffer := ⟨.ready, some ⟨5, some 1, .day, 0, 1⟩, []⟩
    let s := idle.running.modView .leftMain fun u => { u with state := .live, ring := { u.ring with b0 := buffer } }
    let t := idle.running.modView .leftMain fun u => { u with state := .lost }
    (s.unit .left).composer.nextOut ≤ (s.advance 16667).clock ∧ (s.view .leftMain).ring.has .ready = true ∧
      (s.view .leftMain).state = .live ∧ s.mode = .run ∧ (t.view .leftMain).state = .lost ∧ idle.mode = .config ∧
      (idle.view .leftMain).ring.has .ready = false := by decide +kernel

/-- A LIVE view without a completion is lost to HOLD, with cause 1 in its record (R62, R65). -/
theorem test_view_lost_to_hold :
    let s := (idle.running.modView .leftMain fun u => { u with state := .live })
    let s' := after (.outputFrameStart 16667 .left) { s with faults := { s.faults with conditions := 0, log := [] } }
    (s'.view .leftMain).state = .lost ∧
      s'.faults.log.map (fun r => (r.descriptor, r.detail)) = [(.view .leftMain .viewLost, [1])] := by decide +kernel

/-- With its outcome: a LOST view stays LOST, and one in CONFIG becomes NOTREADY. -/
theorem test_views_at_an_output_frame_start :
    let t := idle.running.modView .leftMain fun u => { u with state := .lost, recovery := 30 }
    ((after (.outputFrameStart 16667 .left) t).view .leftMain).state = .lost ∧
      ((after (.outputFrameStart 16667 .left) { t with mode := .config }).view .leftMain).state = .notReady := by
  decide +kernel

theorem witness_reactions :
    let e : PolicyEntry := ⟨none, 0x0C, 0x3F, .both, .degrade⟩
    ((∀ x ∈ ([] : List PolicyEntry), x.hits (.cam .left .selftestDone) .leftMain = false) ∧
      e.hits (.cam .left .selftestDone) .leftMain = true) ∧ e.hits (.cam .left .silent) .leftMain = false ∧
      idle.faults.active (.cam .left .linkLost) = true ∧ (Descriptor.cam .left .linkLost).concerns .leftMain = true := by
  decide +kernel

/-- A POLICY that a composer latches: not usable, usable, and with a double error in its last entry. -/
theorem witness_policy_latch :
    let s := idle.withKind .policy fun r => { r with generation := 1 }
    let bad := (s.upset 261 0).upset 261 1
    (s.unit .left).composer.nextOut ≤ (s.advance 16667).clock ∧ idle.tables.usable .policy = false ∧
      s.tables.usable .policy = true ∧
      (∀ e ∈ List.range 16, (s.tables.word .policy (s.tables.kind .policy).live (2 + e)).errors < 2) ∧
      (bad.tables.word .policy (bad.tables.kind .policy).live (2 + 15)).errors = 2 := by decide +kernel

/-- DEGRADE from an entry acts as WARN for SELFTEST_DONE (R133). -/
theorem test_selftest_never_degrades :
    reactionTo [⟨none, 0x0C, 0x3F, .both, .degrade⟩] (.cam .left .selftestDone) .leftMain = .warn := by decide +kernel

theorem witness_light :
    let s := idle.withKind .light fun r => { r with generation := 1 }
    idle.tables.usable .light = false ∧ s.tables.usable .light = true ∧
      (∀ i ∈ List.range 24, (s.tables.word .light (s.tables.kind .light).live i).errors = 0) ∧
      (s.unit .left).composer.nextOut ≤ (s.advance 16667).clock := by decide +kernel

/-! ### Witnesses: the tracker, the core and the invariants -/

/-- A box at the edge of the sensor, a tracker that is sound, and a target at each bound. -/
theorem witness_tracks :
    let box : Box := ⟨0, 29, 0, 19⟩
    (box.x0 ≤ box.x1 ∧ box.x1 ≤ 29 ∧ box.y0 ≤ box.y1 ∧ box.y1 ≤ 19) ∧
      (({} : Glare).tracks[0].attenuation = 256 ∧ ({} : Glare).tracks[5].state = .free ∧
        ({} : Glare).candidates.length ≤ 8 ∧ ({} : Glare).zones = []) ∧ 16 ≤ 16 ∧ 255 ≤ 255 := by decide +kernel

/-- A map of 600 cells; a tracker whose lowest FREE slot is slot 0, and one without a FREE slot; and a RELEASING track
that its slew brings to 256. -/
theorem witness_tracker_cases :
    let busy : Track := { state := .releasing, attenuation := 250 }
    let full : Glare := { tracks := Vector.replicate 6 busy }
    (List.replicate 600 false).length = 600 ∧ ({} : Glare).tracks[0].state = .free ∧
      (∀ j : Fin 6, full.tracks[j.val].state ≠ .free) ∧ busy.state = .releasing ∧ min 256 (busy.attenuation + 16) = 256 := by
  decide +kernel

/-- A usable live GLARE bank with its target attenuation at a bound, outside the clearing, and a step from there; a
target of 0 is out of range (R178). -/
theorem witness_glare_tables :
    let usable := idle.withKind .glare fun r => { r with generation := 1 }
    let s := { usable with tables := usable.tables.writeWord .glare (usable.tables.kind .glare).live 14 255 }
    s.tables.usable .glare = true ∧ s.glareTablesSound ∧ s.tables.sound ∧ step s = .next s ∧
      ¬ usable.glareTargetInRange ∧ State.reset.glareTablesSound := by
  refine ⟨by decide +kernel, ?_, ⟨by decide +kernel, ?_, by decide +kernel⟩, rfl, ?_, ?_⟩
  · unfold State.glareTablesSound State.glareTargetInRange; decide +kernel
  · intro k c h; cases k <;> cases h
  · unfold State.glareTargetInRange; decide +kernel
  · unfold State.glareTablesSound State.glareTargetInRange; decide +kernel

/-- The first map of chapter 4's worked example: cells (10, 6) and (11, 6) form the candidate with centroid (44, 26),
and the single cell (20, 12) the one with centroid (82, 50) (R79, R80). -/
theorem test_candidates_of_the_worked_example :
    let map := (List.range 600).map fun a => a == 190 || a == 191 || a == 380
    componentsOf 600 (hotCells map) = [[190, 191], [380]] ∧
      candidateOf 6 [190, 191] = ⟨⟨10, 11, 6, 6⟩, 2, 44, 26, false⟩ ∧
      candidateOf 6 [380] = ⟨⟨20, 20, 12, 12⟩, 1, 82, 50, false⟩ := by decide +kernel

/-- A miss carries the box with its whole-cell motion: 3 + 6 quarter cells is 9, two cells to the right (R88). -/
theorem test_miss_carries_the_box :
    let x : Track := { state := .confirmed, qx := 3, qy := 9, vx := 6, vy := 0, box := ⟨0, 1, 2, 3⟩ }
    x.miss.qx = 9 ∧ x.miss.box = ⟨2, 3, 2, 3⟩ := by decide +kernel

/-- A pixel inside the frame, a zone that contains one, and a curve that rises. -/
theorem witness_pixel :
    (0 < 1 ∧ 1 < 1919 ∧ 0 < 1278 ∧ 1278 < 1279) ∧ (1919 < 1920 ∧ 1279 < 1280) ∧
      (devProfileFallback.c1 ≤ devProfileFallback.c2 ∧ devProfileFallback.c2 ≤ devProfileFallback.c3) ∧
      ((windowFallback .leftMain).scale = 48 ∧ (windowFallback .leftMain).y0 + 511 * 48 / 32 < 1280) ∧ (Zone.mk 0 0 63 63 64).contains 63 0 = true ∧
      (Zone.mk 0 0 63 63 64).attenuation ≤ 256 ∧
      fallbackCurve.Pairwise (fun p q => p.1 < q.1) ∧ fallbackCurve[31]? = some (1015808, 992) ∧
      fallbackCurve[32]? = some (1048575, 1023) ∧ fallbackCurve.getLast? = some (1048575, 1023) := by decide +kernel

/-- The hypotheses of the invariants are met after power-on, and an idle step answers. -/
theorem witness_invariants :
    ramWf State.reset.tables.ram = true ∧ State.reset.tables.corruptKinds = [] ∧ State.reset.faults.log.length ≤ 32 ∧
      State.reset.left.main.ring.statuses = [.free, .free, .free] ∧ State.reset.left.channel.sound ∧
      step State.reset = .next State.reset :=
  ⟨rfl, rfl, by decide +kernel, rfl, ⟨by decide +kernel, by decide +kernel⟩, rfl⟩

/-- A step that changes the mode to RUN, one that changes it to CONFIG, and one that changes a generation. -/
theorem witness_mode_and_banks :
    let good := fun r : KindRecord => { r with generation := 1 }
    let s := ((((idle.withKind .cameraL good).withKind .cameraR good).withKind .view good).withKind .tone good).withKind
      .timing good
    let crc := crc16 (List.replicate 72 0)
    (after (.enterRun 9 .left 1 []) s).mode = .run ∧ (after (.enterConfig 9 .left 1 []) s.running).mode = .config ∧
      ((after (.commitTable 9 .left 1 [6, crc.truncate 8, (crc >>> 8).truncate 8]) s).tables.kind .policy).generation =
        1 := by decide +kernel

end Sys2Proof.Tests
end

section
/-! SUPPORT. The development arithmetic (chapter 2): one group of lemmas for each stage of a pixel, and the reference
pass over the whole frame. -/

namespace Sys2Proof.Machine

/-! ### From code to black-corrected sample (R32, R33) -/

section
variable {p : DevProfile} {c : Nat}

theorem decompand_below_c1 (h : c < p.c1) : decompand p c = c * 2 ^ p.g0 := if_pos h

theorem decompand_below_c2 (h1 : p.c1 ≤ c) (h2 : c < p.c2) :
    decompand p c = p.c1 * 2 ^ p.g0 + (c - p.c1) * 2 ^ p.g1 := by
  simp [decompand, h1.not_gt, h2]

theorem decompand_below_c3 (h1 : p.c1 ≤ c) (h2 : p.c2 ≤ c) (h3 : c < p.c3) :
    decompand p c = p.c1 * 2 ^ p.g0 + (p.c2 - p.c1) * 2 ^ p.g1 + (c - p.c2) * 2 ^ p.g2 := by
  simp [decompand, h1.not_gt, h2.not_gt, h3]

theorem decompand_from_c3 (h1 : p.c1 ≤ c) (h2 : p.c2 ≤ c) (h3 : p.c3 ≤ c) :
    decompand p c =
      p.c1 * 2 ^ p.g0 + (p.c2 - p.c1) * 2 ^ p.g1 + (p.c3 - p.c2) * 2 ^ p.g2 + (c - p.c3) * 2 ^ p.g3 := by
  simp [decompand, h1.not_gt, h2.not_gt, h3.not_gt]

theorem sampleOf_eq (code : Code) : sampleOf p code = decompand p code.toNat - p.black := rfl

end

/-! ### The missing colours (R34) -/

theorem colourAt_eq_red (x y : Nat) : colourAt x y = .red ↔ x % 2 = 0 ∧ y % 2 = 0 := by
  unfold colourAt
  split
  · simp; omega
  · split <;> simp <;> omega

theorem colourAt_eq_green (x y : Nat) : colourAt x y = .green ↔ (x + y) % 2 = 1 := by
  unfold colourAt
  split
  next odd => simp [odd]
  next even => split <;> simp [even]

theorem colourAt_eq_blue (x y : Nat) : colourAt x y = .blue ↔ x % 2 = 1 ∧ y % 2 = 1 := by
  unfold colourAt
  split
  · simp; omega
  · split <;> simp <;> omega

/-- A coordinate moved by `d` and clamped into `0 .. top`. -/
def clampedStep (top n : Nat) (d : Int) : Nat := (max 0 (min (top : Int) (n + d))).toNat

theorem clampedStep_back {top n : Nat} (h : n ≤ top) : clampedStep top n (-1) = n - 1 := by
  unfold clampedStep; omega

theorem clampedStep_zero {top n : Nat} (h : n ≤ top) : clampedStep top n 0 = n := by
  unfold clampedStep; omega

theorem clampedStep_forward (top n : Nat) : clampedStep top n 1 = min (n + 1) top := by
  unfold clampedStep; omega

theorem neighbours_eq_clampedStep {x y : Nat} (hx : x ≤ 1919) (hy : y ≤ 1279) :
    neighbours x y = ([-1, 0, 1] : List Int).flatMap fun dy =>
      ([-1, 0, 1] : List Int).map fun dx => (clampedStep 1919 x dx, clampedStep 1279 y dy) := by
  simp [neighbours, clampedStep_back, clampedStep_zero, clampedStep_forward, hx, hy, Config.sensorWidth,
    Config.sensorHeight]

theorem neighbours_interior {x y : Nat} (hx : x < 1919) (hy : y < 1279) :
    neighbours x y = [(x - 1, y - 1), (x, y - 1), (x + 1, y - 1), (x - 1, y), (x, y), (x + 1, y),
      (x - 1, y + 1), (x, y + 1), (x + 1, y + 1)] := by
  have hx' : min (x + 1) (Config.sensorWidth - 1) = x + 1 := min_eq_left (by simp only [Config.sensorWidth]; omega)
  have hy' : min (y + 1) (Config.sensorHeight - 1) = y + 1 := min_eq_left (by simp only [Config.sensorHeight]; omega)
  simp [neighbours, hx', hy']

section
variable (m : Nat → Nat → Nat) (x y : Nat)

/-- A channel by a test `carries` that says which pixels carry its colour. -/
theorem channelAt_of_carries {c : Colour} {carries : Nat × Nat → Bool}
    (h : ∀ p, decide (colourAt p.1 p.2 = c) = carries p) :
    channelAt m x y c =
      if carries (x, y) then m x y
      else (((neighbours x y).filter carries).map fun p => m p.1 p.2).sum /
        (((neighbours x y).filter carries).map fun p => m p.1 p.2).length := by
  have hcarries : (fun p : Nat × Nat => decide (colourAt p.1 p.2 = c)) = carries := funext h
  simp only [channelAt, meanOf, hcarries, ← h (x, y), decide_eq_true_eq]

/-- The mean of the two neighbours in the row. -/
def meanAcross : Nat := (m (x - 1) y + m (x + 1) y) / 2

/-- The mean of the two neighbours in the column. -/
def meanDown : Nat := (m x (y - 1) + m x (y + 1)) / 2

/-- The mean of the four neighbours in the row and the column. -/
def meanCross : Nat := (m (x - 1) y + m (x + 1) y + m x (y - 1) + m x (y + 1)) / 4

/-- The mean of the four diagonal neighbours. -/
def meanCorners : Nat := (m (x - 1) (y - 1) + m (x + 1) (y - 1) + m (x - 1) (y + 1) + m (x + 1) (y + 1)) / 4

variable {x y} (hx0 : 0 < x) (hx : x < 1919) (hy0 : 0 < y) (hy : y < 1279)
include hx0 hx hy0 hy

/-- The neighbours that carry green, at a pixel that does not. -/
theorem filter_neighbours_green (heven : ¬ (x + y) % 2 = 1) :
    ((neighbours x y).filter fun p => decide (colourAt p.1 p.2 = .green)) =
      [(x, y - 1), (x - 1, y), (x + 1, y), (x, y + 1)] := by
  have hcorners : (x - 1 + (y - 1)) % 2 = 0 ∧ (x + 1 + (y - 1)) % 2 = 0 ∧ (x - 1 + (y + 1)) % 2 = 0 ∧
      (x + 1 + (y + 1)) % 2 = 0 := by omega
  have hcross : (x + (y - 1)) % 2 = 1 ∧ (x - 1 + y) % 2 = 1 ∧ (x + 1 + y) % 2 = 1 ∧
      (x + (y + 1)) % 2 = 1 := by omega
  simp [neighbours_interior hx hy, colourAt_eq_green, heven, hcorners, hcross]

theorem channelAt_green_interior :
    channelAt m x y .green = if (x + y) % 2 = 1 then m x y else meanCross m x y := by
  simp only [channelAt, colourAt_eq_green x y]
  split
  next => rfl
  next heven =>
    rw [filter_neighbours_green hx0 hx hy0 hy heven]
    simp only [meanOf, meanCross, List.map_cons, List.map_nil, List.sum_cons, List.sum_nil, List.length_cons,
      List.length_nil]
    omega

section
variable {c : Colour} {a : Nat} (ha : a < 2) (hc : ∀ i j, colourAt i j = c ↔ i % 2 = a ∧ j % 2 = a)
include ha hc

/-- The neighbours that carry a colour of every second column of every second row: red stands at the even ones, blue
at the odd ones. -/
theorem filter_neighbours_of_parity :
    ((neighbours x y).filter fun p => decide (colourAt p.1 p.2 = c)) =
      if y % 2 = a then (if x % 2 = a then [(x, y)] else [(x - 1, y), (x + 1, y)])
      else if x % 2 = a then [(x, y - 1), (x, y + 1)]
      else [(x - 1, y - 1), (x + 1, y - 1), (x - 1, y + 1), (x + 1, y + 1)] := by
  have back : ∀ {n}, 0 < n → ((n - 1) % 2 = a ↔ ¬ n % 2 = a) := by omega
  have forward : ∀ n, (n + 1) % 2 = a ↔ ¬ n % 2 = a := by omega
  by_cases hpy : y % 2 = a <;> by_cases hpx : x % 2 = a <;>
    simp [neighbours_interior hx hy, hc, back hx0, back hy0, forward, hpx, hpy]

theorem channelAt_interior_of_parity :
    channelAt m x y c =
      if y % 2 = a then (if x % 2 = a then m x y else meanAcross m x y)
      else if x % 2 = a then meanDown m x y else meanCorners m x y := by
  simp only [channelAt, hc x y, filter_neighbours_of_parity hx0 hx hy0 hy ha hc]
  by_cases hpy : y % 2 = a <;> by_cases hpx : x % 2 = a <;> simp only [hpx, hpy, if_true, if_false, and_true, and_false]
  · simp [meanOf, meanAcross]
  · simp [meanOf, meanDown]
  · simp [meanOf, meanCorners, Nat.add_assoc]

end

end

/-! ### Glare compression (R37, R38) -/

section
variable {g : DevGlare} {zones : List Zone} {x y luma : Nat}

theorem contains_iff (z : Zone) (x y : Nat) :
    z.contains x y = true ↔ z.x0 ≤ x ∧ x ≤ z.x1 ∧ z.y0 ≤ y ∧ y ≤ z.y1 := by
  simp [Zone.contains, and_assoc]

theorem effectiveAttenuation_eq_none {f : Nat} (h : ∀ z ∈ zones, ¬ z.contains x y = true) :
    effectiveAttenuation zones f x y = none := by
  simpa [effectiveAttenuation, List.min?_eq_none_iff] using h

theorem effectiveAttenuation_eq_some_iff {f a : Nat} :
    effectiveAttenuation zones f x y = some a ↔
      (∃ z ∈ zones, z.contains x y = true ∧ z.attenuationAt f x y = a) ∧
        ∀ z ∈ zones, z.contains x y = true → a ≤ z.attenuationAt f x y := by
  have hleast : ∀ zs : List Zone, (∀ b ∈ zs.map fun z => z.attenuationAt f x y, a ≤ b) ↔
      ∀ z ∈ zs, a ≤ z.attenuationAt f x y := fun _ => List.forall_mem_map
  rw [effectiveAttenuation, List.min?_eq_some_iff, hleast]
  simp only [List.mem_map, List.mem_filter, and_imp, and_assoc]

theorem compress_outside (h : effectiveAttenuation zones g.feather x y = none) :
    compress g zones x y luma = luma := by
  simp [compress, h]

theorem compress_of_le_knee (h : luma ≤ g.knee) : compress g zones x y luma = luma := by
  unfold compress
  split <;> simp [h]

theorem compress_above_knee {a : Nat} (h : effectiveAttenuation zones g.feather x y = some a) (hk : g.knee < luma) :
    compress g zones x y luma = g.knee + (luma - g.knee) * a / 256 := by
  simp [compress, h, hk.not_ge]

theorem attenuationAt_le {z : Zone} (h : z.attenuation ≤ 256) (f x y : Nat) : z.attenuationAt f x y ≤ 256 := by
  unfold Zone.attenuationAt
  split
  · exact h
  · exact Nat.sub_le _ _

/-- Compression scales what lies above the knee by at most 256/256. -/
theorem compress_le (h : ∀ z ∈ zones, z.attenuation ≤ 256) : compress g zones x y luma ≤ luma := by
  by_cases hk : luma ≤ g.knee
  · exact (compress_of_le_knee hk).le
  cases ha : effectiveAttenuation zones g.feather x y with
  | none => exact (compress_outside ha).le
  | some a =>
    obtain ⟨z, hz, -, rfl⟩ := (effectiveAttenuation_eq_some_iff.mp ha).1
    have hle : (luma - g.knee) * z.attenuationAt g.feather x y / 256 ≤ luma - g.knee :=
      Nat.div_le_of_le_mul (Nat.mul_comm .. ▸ Nat.mul_le_mul_right _ (attenuationAt_le (h z hz) ..))
    rw [compress_above_knee ha (Nat.lt_of_not_le hk)]
    omega

end

/-! ### Tone (R39) -/

section
variable {p q : Nat × Nat} {rest curve : Curve} {x : Nat}

theorem interpolate_first_segment (h : x < q.1) :
    interpolate (p :: q :: rest) x = p.2 + (x - p.1) * (q.2 - p.2) / (q.1 - p.1) := if_pos h

theorem interpolate_later_segment (h : q.1 ≤ x) : interpolate (p :: q :: rest) x = interpolate (q :: rest) x :=
  if_neg h.not_gt

theorem first_knot_le {k : Nat × Nat} (hc : (k :: rest).Pairwise fun p q => p.1 < q.1) (hp : p ∈ k :: rest) :
    k.1 ≤ p.1 := by
  obtain rfl | hmem := List.mem_cons.mp hp
  · exact le_rfl
  · exact ((List.pairwise_cons.mp hc).1 p hmem).le

/-- Between two knots that follow one another the tone is their linear interpolation: the segments before them end
at or below `x`. -/
theorem interpolate_segment {i : Nat} (hc : curve.Pairwise fun p q => p.1 < q.1) (hp : curve[i]? = some p)
    (hq : curve[i + 1]? = some q) (hpx : p.1 ≤ x) (hxq : x < q.1) :
    interpolate curve x = p.2 + (x - p.1) * (q.2 - p.2) / (q.1 - p.1) := by
  induction curve generalizing i with
  | nil => simp at hp
  | cons k tail ih =>
    obtain ⟨-, htail⟩ := List.pairwise_cons.mp hc
    cases tail with
    | nil => simp at hq
    | cons k' rest =>
      cases i with
      | zero =>
        obtain ⟨rfl, rfl⟩ : k = p ∧ k' = q := by simpa using And.intro hp hq
        exact interpolate_first_segment hxq
      | succ i =>
        have hp' : (k' :: rest)[i]? = some p := by simpa using hp
        rw [interpolate_later_segment ((first_knot_le htail (List.mem_of_getElem? hp')).trans hpx)]
        exact ih htail hp' (by simpa using hq)

/-- At and beyond the last knot the tone is the last knot's level. -/
theorem interpolate_from_last (hc : curve.Pairwise fun p q => p.1 < q.1) (hp : curve.getLast? = some p)
    (hpx : p.1 ≤ x) : interpolate curve x = p.2 := by
  induction curve with
  | nil => simp at hp
  | cons k tail ih =>
    obtain ⟨-, htail⟩ := List.pairwise_cons.mp hc
    cases tail with
    | nil =>
      obtain rfl : k = p := by simpa using hp
      rfl
    | cons k' rest =>
      have hp' : (k' :: rest).getLast? = some p := by simpa using hp
      rw [interpolate_later_segment ((first_knot_le htail (List.mem_of_getLast? hp')).trans hpx)]
      exact ih htail hp'

end

/-! ### The reference pass over the whole frame (R47) -/

/-- The image takes region row `v` when the pass develops the row that `v` takes. -/
def imageRow (w : WorkingCopies) (image : Picture) (y : Nat) : Picture :=
  if image.length < 512 ∧ w.mainWindow.sourceRow image.length = y then
    image ++ [(List.range 1280).map fun u => (referencePixel w (w.mainWindow.sourceColumn u) y).out]
  else image

theorem ReferencePass.takeRow_eq (p : ReferencePass) (y : Nat) :
    p.takeRow y = { p with signature := signRow p.copies y p.signature, image := imageRow p.copies p.image y } := rfl

/-- A pass over some rows is two folds over them, one for the signature and one for the image. -/
theorem ReferencePass.foldl_takeRow (rows : List Nat) (p : ReferencePass) :
    rows.foldl ReferencePass.takeRow p =
      { p with
        signature := rows.foldl (fun crc y => signRow p.copies y crc) p.signature
        image := rows.foldl (imageRow p.copies) p.image } := by
  induction rows generalizing p with
  | nil => rfl
  | cons y rows ih => rw [List.foldl_cons, ih, takeRow_eq]; rfl

/-! The signature -/

/-- The rows with sample points, among the first `n` rows of cells. -/
theorem filter_gridRow_range (n : Nat) :
    (List.range (64 * n)).filter gridRow = (List.range n).map fun cy => 32 + 64 * cy := by
  induction n with
  | zero => rfl
  | succ n ih =>
    have hcell : gridRow ∘ (64 * n + ·) = gridRow := by
      funext j; simp [gridRow]
    have hone : (List.range 64).filter gridRow = [32] := by decide
    rw [Nat.mul_succ, List.range_add, List.filter_append, ih, List.filter_map, hcell, hone, List.range_succ,
      List.map_append]
    simp [Nat.add_comm]

/-- The bytes of a pixel as they are fed to the CRC. -/
def channelBytes (c : Rgb) : List Byte :=
  [c.r.toNat, c.g.toNat, c.b.toNat].flatMap fun n => [BitVec.ofNat 8 (n / 256), BitVec.ofNat 8 n]

theorem crcPixel_eq (crc : Half) (c : Rgb) : crcPixel crc c = (channelBytes c).foldl crcByte crc := rfl

/-- The develop signature feeds the sample points of the frame in raster order. -/
theorem foldl_signRow_frame (w : WorkingCopies) (crc : Half) :
    (List.range 1280).foldl (fun crc y => signRow w y crc) crc =
      ((List.range 20).flatMap fun cy => (List.range 30).flatMap fun cx =>
        channelBytes (referencePixel w (32 + 64 * cx) (32 + 64 * cy)).out).foldl crcByte crc := by
  simp only [signRow, crcPixel_eq, gridColumns, List.foldl_map]
  rw [← List.foldl_filter, filter_gridRow_range 20, List.foldl_map]
  simp only [List.foldl_flatMap]

/-! The image -/

/-- The rows that region rows take rise: a window enlarges nothing (R30). -/
theorem Window.sourceRow_strictMono {w : Window} (hs : 32 ≤ w.scale) : StrictMono w.sourceRow := by
  refine strictMono_nat_of_lt_succ fun v => ?_
  simp only [Window.sourceRow, Nat.add_mul]
  omega

/-- Region row `v` of the reference image. -/
def referenceRow (w : WorkingCopies) (v : Nat) : List Rgb :=
  (List.range 1280).map fun u =>
    (referencePixel w (w.mainWindow.sourceColumn u) (w.mainWindow.sourceRow v)).out

/-- After `n` rows the image holds its first `k` rows, and row `k` is still to come. -/
theorem foldl_imageRow_range {w : WorkingCopies} (hs : 32 ≤ w.mainWindow.scale) (n : Nat) :
    ∃ k ≤ 512, (List.range n).foldl (imageRow w) [] = (List.range k).map (referenceRow w) ∧
      (k < 512 → n ≤ w.mainWindow.sourceRow k) := by
  induction n with
  | zero => exact ⟨0, by omega, rfl, fun _ => Nat.zero_le _⟩
  | succ n ih =>
    obtain ⟨k, hk, himage, hnext⟩ := ih
    rw [List.range_succ, List.foldl_append, himage]
    by_cases htake : k < 512 ∧ w.mainWindow.sourceRow k = n
    · obtain ⟨hlt, hrow⟩ := htake
      have hrise := Window.sourceRow_strictMono hs k.lt_add_one
      refine ⟨k + 1, hlt, ?_, fun _ => by omega⟩
      rw [List.range_succ, List.map_append]
      simp [imageRow, hlt, hrow, referenceRow]
    · refine ⟨k, hk, ?_, fun hlt => ?_⟩
      · simp [imageRow, htake]
      · have := hnext hlt
        omega

theorem foldl_imageRow_frame {w : WorkingCopies} (hs : 32 ≤ w.mainWindow.scale)
    (hin : w.mainWindow.sourceRow 511 < 1280) :
    (List.range 1280).foldl (imageRow w) [] = (List.range 512).map (referenceRow w) := by
  obtain ⟨k, hk, himage, hnext⟩ := foldl_imageRow_range hs 1280
  obtain rfl | hlt := hk.eq_or_lt
  · exact himage
  · have := (Window.sourceRow_strictMono hs).monotone (Nat.le_of_lt_succ hlt)
    have := hnext hlt
    omega

/-- R47: a reference pass over the whole reference frame. -/
theorem ReferencePass.takeAll_eq {p : ReferencePass} (himage : p.image = [])
    (hs : 32 ≤ p.copies.mainWindow.scale) (hin : p.copies.mainWindow.sourceRow 511 < 1280) :
    p.takeAll =
      { p with
        signature :=
          ((List.range 20).flatMap fun cy => (List.range 30).flatMap fun cx =>
            channelBytes (referencePixel p.copies (32 + 64 * cx) (32 + 64 * cy)).out).foldl crcByte p.signature
        image := (List.range 512).map (referenceRow p.copies) } := by
  rw [← foldl_signRow_frame, ← foldl_imageRow_frame hs hin, ← himage]
  exact foldl_takeRow _ p

/-! ### A pixel -/

/-- The stages after the colour channels (R35 to R40). -/
def pixelOfChannels (w : WorkingCopies) (x y red green blue : Nat) : Developed :=
  let r := balance w.profile.gainR red
  let g := balance w.profile.gainG green
  let b := balance w.profile.gainB blue
  let luma := luminance r g b
  let tone := interpolate w.curve (compress w.glare w.zones x y luma)
  ⟨luma, ⟨outputChannel r tone luma, outputChannel g tone luma, outputChannel b tone luma⟩⟩

theorem developPixel_eq (w : WorkingCopies) (m : Nat → Nat → Nat) (x y : Nat) :
    developPixel w m x y =
      pixelOfChannels w x y (channelAt m x y .red) (channelAt m x y .green) (channelAt m x y .blue) := rfl

/-- Settles O54: the stages of a pixel and the reference pass, each by the lemmas of its group. -/
theorem aPixelIsDevelopedInStages : Obligations.APixelIsDevelopedInStages := by
  unfold Obligations.APixelIsDevelopedInStages
  refine ⟨?_, ?_, ?_, ?_, ?_, ?_⟩
  -- R32, R33: decompanding and black level.
  · intro p code c base1 base2 base3 h12 h23
    simp only [sampleOf_eq]
    refine ⟨fun h => ?_, fun h1 h2 => ?_, fun h2 h3 => ?_, fun h3 => ?_⟩
    · rw [decompand_below_c1 h]
    · rw [decompand_below_c2 h1 h2]
    · rw [decompand_below_c3 (h12.trans h2) h2 h3]
    · have h2 := h23.trans h3
      rw [decompand_from_c3 (h12.trans h2) h2 h3]
  -- R34 to R40 at every pixel, with the positions clamped into the frame.
  · intro w m x y hx hy clamp positions isRed isGreen isBlue channel r g b
    have hpositions : neighbours x y = positions :=
      neighbours_eq_clampedStep (Nat.le_of_lt_succ hx) (Nat.le_of_lt_succ hy)
    have hchannel : ∀ {c carries}, (∀ p : Nat × Nat, decide (colourAt p.1 p.2 = c) = carries p) →
        channelAt m x y c = channel carries := fun h => by
      rw [channelAt_of_carries m x y h, hpositions]
    have hred : channelAt m x y .red = channel isRed :=
      hchannel fun p => decide_eq_decide.mpr (colourAt_eq_red ..)
    have hgreen : channelAt m x y .green = channel isGreen :=
      hchannel fun p => decide_eq_decide.mpr (colourAt_eq_green ..)
    have hblue : channelAt m x y .blue = channel isBlue :=
      hchannel fun p => decide_eq_decide.mpr (colourAt_eq_blue ..)
    rw [developPixel_eq, hred, hgreen, hblue]
    exact ⟨rfl, rfl⟩
  -- R47: the reference pass.
  · intro p himage hs w hin pixel channels
    exact ReferencePass.takeAll_eq himage hs hin
  -- R34 to R40 inside the frame, where no position is clamped.
  · intro w m x y hx0 hx hy0 hy cross corners across down red green blue r g b luma tone out
    rw [developPixel_eq, channelAt_interior_of_parity m hx0 hx hy0 hy (by decide) colourAt_eq_red,
      channelAt_green_interior m hx0 hx hy0 hy,
      channelAt_interior_of_parity m hx0 hx hy0 hy (by decide) colourAt_eq_blue]
    rfl
  -- R37, R38: glare compression.
  · intro g zones x y luma inside attenuation
    refine ⟨?_, fun z hz hin hk hleast => ?_, compress_le⟩
    · rintro (hle | hout)
      · exact compress_of_le_knee hle
      · exact compress_outside (effectiveAttenuation_eq_none fun z hz hin =>
          hout z hz ((contains_iff z x y).mp hin))
    · refine compress_above_knee (effectiveAttenuation_eq_some_iff.mpr ⟨?_, fun z' hz' hin' => ?_⟩) hk
      · exact ⟨z, hz, (contains_iff z x y).mpr hin, rfl⟩
      · exact hleast z' hz' ((contains_iff z' x y).mp hin')
  -- R39: the tone.
  · intro curve hc
    exact ⟨fun i p q x hp hq => interpolate_segment hc hp hq, fun p x hp => interpolate_from_last hc hp⟩

end Sys2Proof.Machine
end

section
/-! SUPPORT. The end of a reference pass: what the sequencer makes of it (R148, R149), and when the step ends it
(R47). -/

namespace Sys2Proof.Machine

theorem State.modRun_modRun (s : State) (side : Side) (f g : Run → Run) :
    (s.modRun side f).modRun side g = s.modRun side (g ∘ f) := by
  simp only [State.modRun, State.modSequencer_eq, State.modUnit_modUnit]
  congr 1
  funext u
  simp

/-- When a run waits for a reference pass (R148, R149). -/
theorem Run.obtaining_iff (r : Run) :
    r.obtaining = true ↔ (r.step = .develop ∨ r.step = .store) ∧ r.timerDue.isSome = true := by
  simp [Run.obtaining]

section
variable {s : State} {side : Side} {p : ReferencePass} {r : Run}

theorem State.referenceDone_no_run (h : (s.unit side).sequencer.run = none) :
    s.referenceDone side p = s.setPass side .idle := by
  simp [State.referenceDone, h]

theorem State.referenceDone_not_obtaining (h : (s.unit side).sequencer.run = some r) (ho : ¬ r.obtaining = true) :
    s.referenceDone side p = s.setPass side .idle := by
  simp [State.referenceDone, h, ho]

/-- R148: a DEVELOP step that waits for the pass keeps the image and is judged by the signature. -/
theorem State.referenceDone_develop (h : (s.unit side).sequencer.run = some r) (ho : r.obtaining = true)
    (hd : r.step = .develop) :
    s.referenceDone side p =
      ((s.setPass side .idle).modRun side fun x => { x with image := some p.image }).settle side
        (if some p.signature = r.reference then .pass else .fail) := by
  simp [State.referenceDone, h, ho, hd, verdict]

/-- R149: a STORE step that waits for the pass keeps the image and asks for its write. -/
theorem State.referenceDone_store (h : (s.unit side).sequencer.run = some r) (ho : r.obtaining = true)
    (hne : r.step ≠ .develop) :
    s.referenceDone side p =
      ((s.setPass side .idle).modRun side fun x => { x with image := some p.image, timerDue := none }).modBuffer side
        fun b => { b with transfers := b.transfers ++ [.write p.image true] } := by
  simp [State.referenceDone, h, ho, hne, State.modRun_modRun, State.askTransfer, Function.comp_def]

variable {t : Time} {began : Nat}

theorem exec_referencePassEnd (t : Time) (side : Side) (s : State) :
    exec (.referencePassEnd t side) s = execReferencePassEnd t side s := rfl

/-- R47: an IMMEDIATE pass that has run for 12,000 µs is done; before, only device time moves on (log 2). -/
theorem exec_referencePassEnd_immediate (h : (s.unit side).pass = .reference p) (hp : p.pacing = .immediate began) :
    exec (.referencePassEnd t side) s =
      .next (if began + 12000 ≤ (s.advance t).clock then (s.advance t).referenceDone side p.takeAll
        else s.advance t) := by
  simp only [exec_referencePassEnd, execReferencePassEnd, State.advance_unit, h, hp]
  rfl

/-- Without an IMMEDIATE pass only device time moves on (log 2). -/
theorem exec_referencePassEnd_other
    (h : ∀ p began, (s.unit side).pass = .reference p → p.pacing ≠ .immediate began) :
    exec (.referencePassEnd t side) s = .next (s.advance t) := by
  simp only [exec_referencePassEnd, execReferencePassEnd, State.advance_unit]
  split
  next p hpass =>
    split
    next began hp => exact absurd hp (h p began hpass)
    next => rfl
  next => rfl

end

/-- Settles O40: the step ends an IMMEDIATE pass that is due, and `State.referenceDone` has four cases: no run, a run
that does not wait for a pass, a DEVELOP step and a STORE step. -/
theorem anImmediateReferencePassIsJudged : Obligations.AnImmediateReferencePassIsJudged := by
  unfold Obligations.AnImmediateReferencePassIsJudged
  intro t side s s0 done idle
  refine ⟨fun p began hpass hp => ?_, exec_referencePassEnd_other⟩
  have hdone : done = _ := exec_referencePassEnd_immediate hpass hp
  have hrun : (s0.unit side).sequencer.run = (s.unit side).sequencer.run := by rw [State.advance_unit]
  refine ⟨fun early => ?_, fun due => ?_⟩
  · rw [hdone, if_neg (Nat.not_le.mpr early)]
  rw [hdone, if_pos due]
  refine ⟨fun hnone => ?_, fun r hsome => ⟨fun waits => ?_, fun waits => ?_⟩⟩
  · rw [State.referenceDone_no_run (hrun.trans hnone)]
  · have ho := r.obtaining_iff.mpr waits
    by_cases hd : r.step = .develop
    · rw [if_pos hd, State.referenceDone_develop (hrun.trans hsome) ho hd]
    · rw [if_neg hd, State.referenceDone_store (hrun.trans hsome) ho hd]
  · rw [State.referenceDone_not_obtaining (hrun.trans hsome) (mt r.obtaining_iff.mp waits)]

end Sys2Proof.Machine
end

section
/-! SUPPORT. The line that the frame in reception expects next: the shared operations keep it, as they keep the outline
(Laws/Moves). -/

namespace Sys2Proof.Machine

/-- The line that the frame in reception expects next. -/
def Ingest.line (i : Ingest) : Option Nat := i.frame.map (·.nextLine)

/-- The line that the frame in reception of a side expects next. -/
def State.line (s : State) (side : Side) : Option Nat := (s.unit side).ingest.line

variable (s : State) (side x : Side)

/-! ### State updates and reports -/

/-- A change of one side that keeps a view of its blocks keeps it on both sides. -/
theorem State.modUnit_keeps {α : Type} (g : SideUnit → α) {f : SideUnit → SideUnit}
    (h : g (f (s.unit side)) = g (s.unit side)) : g ((s.modUnit side f).unit x) = g (s.unit x) := by
  by_cases hx : x = side
  · rw [hx, State.modUnit_unit_same, h]
  · rw [State.modUnit_unit_of_ne _ hx]

theorem State.modUnit_line {f : SideUnit → SideUnit}
    (h : (f (s.unit side)).ingest.line = (s.unit side).ingest.line) : (s.modUnit side f).line x = s.line x :=
  s.modUnit_keeps side x (·.ingest.line) h

theorem State.modIngest_line {f : Ingest → Ingest}
    (h : (f (s.unit side).ingest).line = (s.unit side).ingest.line) : (s.modIngest side f).line x = s.line x :=
  s.modUnit_line side x h

@[simp] theorem State.setPass_line (p : Pass) : (s.setPass side p).line x = s.line x := s.modUnit_line side x rfl

@[simp] theorem State.modGlare_line (f : Glare → Glare) : (s.modGlare side f).line x = s.line x :=
  s.modUnit_line side x rfl

@[simp] theorem State.modLight_line (f : Light → Light) : (s.modLight side f).line x = s.line x :=
  s.modUnit_line side x rfl

@[simp] theorem State.modComposer_line (f : Composer → Composer) : (s.modComposer side f).line x = s.line x :=
  s.modUnit_line side x rfl

@[simp] theorem State.modSequencer_line (f : Sequencer → Sequencer) : (s.modSequencer side f).line x = s.line x :=
  s.modUnit_line side x rfl

@[simp] theorem State.modRun_line (f : Run → Run) : (s.modRun side f).line x = s.line x := s.modUnit_line side x rfl

@[simp] theorem State.modBuffer_line (f : SelfTestBuffer → SelfTestBuffer) : (s.modBuffer side f).line x = s.line x :=
  s.modUnit_line side x rfl

@[simp] theorem State.activate_line (d : Descriptor) (w : List Word) : (s.activate d w).line x = s.line x := by
  simp [State.line]

@[simp] theorem State.deactivate_line (d : Descriptor) : (s.deactivate d).line x = s.line x := by simp [State.line]

@[simp] theorem State.raise_line (d : Descriptor) (w : List Word) : (s.raise d w).line x = s.line x := by
  simp [State.line]

@[simp] theorem State.level_line (d : Descriptor) (on : Bool) (w : List Word) : (s.level d on w).line x = s.line x := by
  simp [State.line]

/-! ### Reading tables -/

/-- Reading words changes no block of a side. -/
@[simp] theorem State.readWords_unit (k : Kind) (b : Bank) (offs : List Nat) :
    (s.readWords k b offs).2.unit side = s.unit side := by
  induction offs generalizing s with
  | nil => rfl
  | cons off rest ih =>
    have hword := s.readWord_unit k b off side
    simp only [State.readWords]
    split
    next s1 h => rw [← hword, h]
    next d s1 h =>
      have hrest := ih s1
      rw [h] at hword
      split
      next ws s2 h2 => rw [← hword, ← hrest, h2]
      next e s2 h2 => rw [← hword, ← hrest, h2]

/-- A latch changes no block of a side. -/
@[simp] theorem State.latch_unit (k : Kind) (offs : List Nat) : (s.latch k offs).2.unit side = s.unit side := by
  have h := s.readWords_unit side k (s.tables.kind k).live offs
  unfold State.latch
  split
  · split
    next ws s1 hr => rw [← h, hr]
    next e s1 hr => rw [← h, hr]
  · rfl

@[simp] theorem State.latchCopies_unit : (s.latchCopies side).2.unit x = s.unit x := by simp [State.latchCopies]

@[simp] theorem State.latchReference_unit (off : Nat) : (s.latchReference side off).2.unit x = s.unit x := by
  simp [State.latchReference]

@[simp] theorem State.latch_line (k : Kind) (offs : List Nat) : (s.latch k offs).2.line x = s.line x := by
  simp [State.line]

@[simp] theorem State.latchCopies_line : (s.latchCopies side).2.line x = s.line x := by simp [State.line]

theorem State.line_of_latchReference {s s1 : State} {side : Side} {off : Nat} {w : Option Word}
    (h : s.latchReference side off = (w, s1)) (x : Side) : s1.line x = s.line x := by
  have hunit := s.latchReference_unit side x off
  rw [h] at hunit
  exact congrArg (·.ingest.line) hunit

/-! ### The self-test sequencer -/

@[simp] theorem Ingest.sendRequest_line (i : Ingest) (b : Bool) : (i.sendRequest b).line = i.line := rfl

@[simp] theorem Ingest.withdraw_line (i : Ingest) : i.withdraw.line = i.line := by simp [Ingest.line]

@[simp] theorem State.beginImmediate_line : (s.beginImmediate side).line x = s.line x := by
  simp [State.beginImmediate]

@[simp] theorem State.askSlot_line : (s.askSlot side).line x = s.line x := by
  unfold State.askSlot
  split
  next => simp
  next f hf => exact s.modIngest_line side x (by simp [Ingest.line, hf])

@[simp] theorem State.abandonReference_line : (s.abandonReference side).line x = s.line x := by
  unfold State.abandonReference; split <;> simp

@[simp] theorem State.reaskSlot_line : (s.reaskSlot side).line x = s.line x := by
  unfold State.reaskSlot
  split
  next => rfl
  next => split <;> simp

@[simp] theorem State.askTransfer_line (t : Transfer) : (s.askTransfer side t).line x = s.line x :=
  s.modBuffer_line side x _

@[simp] theorem State.releaseRun_line : (s.releaseRun side).line x = s.line x := by
  simp only [State.releaseRun, State.modBuffer_line, State.abandonReference_line]
  exact s.modIngest_line side x (by simp [Ingest.line])

@[simp] theorem State.endRun_line : (s.endRun side).line x = s.line x := by
  unfold State.endRun
  split
  next => rfl
  next => dsimp only; split <;> simp

@[simp] theorem State.beginLink_line : (s.beginLink side).2.line x = s.line x := by
  unfold State.beginLink; split <;> simp

@[simp] theorem State.beginIdent_line : (s.beginIdent side).2.line x = s.line x := by
  unfold State.beginIdent
  split <;> simp [State.line_of_latchReference ‹_›]

@[simp] theorem State.beginPattern_line : (s.beginPattern side).2.line x = s.line x := by
  unfold State.beginPattern
  split
  next h => exact State.line_of_latchReference h x
  next h =>
    split
    next => exact State.line_of_latchReference h x
    next =>
      rw [State.modRun_line, State.modIngest_line _ _ _ (by simp [Ingest.line, Ingest.sendRequest]),
        State.line_of_latchReference h x]

@[simp] theorem State.beginDevelop_line : (s.beginDevelop side).2.line x = s.line x := by
  unfold State.beginDevelop
  split <;> simp [State.line_of_latchReference ‹_›]

@[simp] theorem State.beginStore_line (image : Option Picture) : (s.beginStore side image).2.line x = s.line x := by
  unfold State.beginStore; split <;> simp

@[simp] theorem State.beginStep_line (r : Run) (st : Step) : (s.beginStep side r st).2.line x = s.line x := by
  cases st <;> simp only [State.beginStep]
  case link => simp
  case ident => split <;> simp
  case pattern => split <;> simp
  case develop => simp
  case store => split <;> simp

@[simp] theorem State.beginNext_line (steps : List Step) : (s.beginNext side steps).line x = s.line x := by
  induction steps generalizing s with
  | nil => exact s.endRun_line side x
  | cons st rest ih =>
    simp only [State.beginNext]
    split
    next => rfl
    next r _ =>
      have hbegin := s.beginStep_line side x r st
      split
      · split
        next hb => rwa [hb] at hbegin
        next hb => rw [hb] at hbegin; rw [ih, State.modSequencer_line, hbegin]
      · exact ih s

@[simp] theorem State.settle_line (o : StepOutcome) : (s.settle side o).line x = s.line x := by
  unfold State.settle
  split
  next => rfl
  next r _ =>
    simp only [State.beginNext_line, State.modSequencer_line, State.abandonReference_line]
    exact s.modIngest_line side x (by split <;> simp [Ingest.line])

@[simp] theorem State.acceptedCompletion_line (id : Option Half) :
    (s.acceptedCompletion side id).line x = s.line x := by
  unfold State.acceptedCompletion
  split
  next => rfl
  next => split <;> simp

@[simp] theorem State.patternCompletion_line (signature : Half) :
    (s.patternCompletion side signature).line x = s.line x := by
  unfold State.patternCompletion
  split
  next => rfl
  next => split <;> simp

@[simp] theorem State.patternFrameStart_line : (s.patternFrameStart side).line x = s.line x := by
  unfold State.patternFrameStart
  split
  next => rfl
  next =>
    split
    · dsimp only; split <;> simp
    · rfl

@[simp] theorem State.referenceDone_line (p : ReferencePass) : (s.referenceDone side p).line x = s.line x := by
  unfold State.referenceDone
  dsimp only
  split
  next => simp
  next =>
    split
    · split <;> simp
    · simp

@[simp] theorem State.writeDone_line (ok : Bool) : (s.writeDone side ok).line x = s.line x := by
  unfold State.writeDone
  split
  next owned rest _ => cases owned <;> cases ok <;> simp
  next => rfl

@[simp] theorem State.readDone_line (data : Option Picture) : (s.readDone side data).line x = s.line x := by
  unfold State.readDone
  split
  next owned rest _ =>
    dsimp only
    split
    · split <;> simp
    · simp
  next => rfl

@[simp] theorem State.lockLossInRun_line : (s.lockLossInRun side).line x = s.line x := by
  unfold State.lockLossInRun
  split
  next => rfl
  next => dsimp only; split <;> simp

@[simp] theorem State.startRun_line (selection : PerStep Bool) : (s.startRun side selection).line x = s.line x := by
  simp [State.startRun]

/-! ### Tracker and light -/

@[simp] theorem State.clearTracker_line : (s.clearTracker side).line x = s.line x := by simp [State.clearTracker]

@[simp] theorem State.trackerCompletion_line (map : List Bool) :
    (s.trackerCompletion side map).line x = s.line x := by simp [State.trackerCompletion]

@[simp] theorem State.lightCompletion_line (scene : Nat) : (s.lightCompletion side scene).line x = s.line x := by
  simp [State.lightCompletion]

@[simp] theorem State.telemetry_line (lux : Nat) (status : Byte) : (s.telemetry side lux status).line x = s.line x := by
  simp [State.telemetry]

@[simp] theorem State.ambientLost_line : (s.ambientLost side).line x = s.line x := by simp [State.ambientLost]

@[simp] theorem State.backlightStart_line : (s.backlightStart side).line x = s.line x := by simp [State.backlightStart]

end Sys2Proof.Machine
end

section
/-! SUPPORT. The soundness of the views, side by side: the states of the buffers and of the views on one hand, and the
frame behind a FILLING buffer on the other. A step that changes neither keeps both; the steps of a frame change them
together. -/

namespace Sys2Proof.Machine

/-! ### One side -/

/-- A view that shows a picture has a SHOWN buffer (3.3). -/
def ViewUnit.pictured (u : ViewUnit) : Prop := u.state.showsPicture = true → u.ring.has .shown = true

/-- The rings of a side are sound, and in RUN its views have their pictures. -/
structure SideUnit.ringsSound (mode : Mode) (u : SideUnit) : Prop where
  main : u.main.ring.sound
  wide : u.wide.ring.sound
  pictured : mode = .run → u.main.pictured ∧ u.wide.pictured

/-- No ring of a side has a FILLING buffer. -/
def SideUnit.quiet (u : SideUnit) : Prop :=
  u.main.ring.has .filling = false ∧ u.wide.ring.has .filling = false

/-- A side is quiet, or its frame in reception may still be accepted (R50). -/
def SideUnit.fillingSound (u : SideUnit) : Prop := u.quiet ∨ u.ingest.mayFill

theorem SideUnit.sound_iff (u : SideUnit) :
    u.sound ↔ (u.main.ring.sound ∧ u.wide.ring.sound) ∧ u.fillingSound := by
  have hquiet : u.quiet ↔ ¬ (u.main.ring.has .filling = true ∨ u.wide.ring.has .filling = true) := by
    rw [SideUnit.quiet, not_or, Bool.not_eq_true, Bool.not_eq_true]
  rw [SideUnit.fillingSound, hquiet, ← imp_iff_not_or, SideUnit.sound, and_assoc]

/-! ### The whole part -/

/-- The states of all buffers and views are sound. -/
def State.ringsSound (s : State) : Prop := ∀ side, (s.unit side).ringsSound s.mode

theorem Side.forall_iff {p : Side → Prop} : (∀ side, p side) ↔ p .left ∧ p .right :=
  ⟨fun h => ⟨h .left, h .right⟩, fun ⟨hl, hr⟩ side => by cases side <;> assumption⟩

theorem State.pictured_iff (s : State) :
    (∀ v, (s.view v).pictured) ↔ ∀ side, (s.unit side).main.pictured ∧ (s.unit side).wide.pictured := by
  refine ⟨fun h side => ?_, fun h v => ?_⟩
  · cases side
    · exact ⟨h .leftMain, h .leftWide⟩
    · exact ⟨h .rightMain, h .rightWide⟩
  · cases v
    · exact (h .left).1
    · exact (h .left).2
    · exact (h .right).1
    · exact (h .right).2

theorem State.viewsSound_iff (s : State) : s.viewsSound ↔ s.ringsSound ∧ ∀ side, (s.unit side).fillingSound := by
  have hsides : s.left.sound ∧ s.right.sound ↔ ∀ side, (s.unit side).sound :=
    (Side.forall_iff (p := fun side => (s.unit side).sound)).symm
  have hviews := s.pictured_iff
  rw [State.viewsSound, ← and_assoc, hsides]
  simp only [SideUnit.sound_iff]
  constructor
  · rintro ⟨hs, hv⟩
    exact ⟨fun side => ⟨(hs side).1.1, (hs side).1.2, fun hrun => hviews.1 (hv hrun) side⟩, fun side => (hs side).2⟩
  · rintro ⟨hr, hf⟩
    exact ⟨fun side => ⟨⟨(hr side).main, (hr side).wide⟩, hf side⟩,
      fun hrun => hviews.2 fun side => (hr side).pictured hrun⟩

/-! ### What leaves the views alone -/

/-- Two sides agree in all that the soundness of the views looks at. -/
structure SideUnit.SameViews (u u' : SideUnit) : Prop where
  main : u'.main.ring.statuses = u.main.ring.statuses
  wide : u'.wide.ring.statuses = u.wide.ring.statuses
  mainState : u'.main.state = u.main.state
  wideState : u'.wide.state = u.wide.state
  shape : u'.ingest.shape = u.ingest.shape
  line : u'.ingest.line = u.ingest.line

theorem Ingest.mayFill_iff (i : Ingest) :
    i.mayFill ↔ ∃ treatment line, i.shape = some (treatment, true) ∧ i.line = some line ∧
      (treatment = .undecided ∧ line = 0 ∨ treatment = .accepted) := by
  unfold Ingest.mayFill Ingest.shape Ingest.line
  constructor
  · rintro ⟨f, hf, hd, ht⟩
    exact ⟨f.treatment, f.nextLine, by simp [hf, hd], by simp [hf], ht⟩
  · rintro ⟨treatment, line, hshape, hline, ht⟩
    obtain ⟨f, hf, hshape⟩ := Option.map_eq_some_iff.1 hshape
    obtain ⟨rfl, hd⟩ := Prod.mk.inj hshape
    rw [hf, Option.map_some, Option.some.injEq] at hline
    exact ⟨f, hf, hd, hline ▸ ht⟩

namespace SideUnit.SameViews
variable {u u' : SideUnit} (h : u.SameViews u')
include h

theorem ringsSound {mode : Mode} (hs : u.ringsSound mode) : u'.ringsSound mode where
  main := Ring.sound_of_statuses h.main hs.main
  wide := Ring.sound_of_statuses h.wide hs.wide
  pictured hrun := by
    simpa only [ViewUnit.pictured, h.mainState, h.wideState, Ring.has_eq_of_statuses h.main,
      Ring.has_eq_of_statuses h.wide] using hs.pictured hrun

theorem quiet_iff : u'.quiet ↔ u.quiet := by
  simp only [SideUnit.quiet, Ring.has_eq_of_statuses h.main, Ring.has_eq_of_statuses h.wide]

theorem mayFill_iff : u'.ingest.mayFill ↔ u.ingest.mayFill := by
  rw [Ingest.mayFill_iff, Ingest.mayFill_iff, h.shape, h.line]

end SideUnit.SameViews

/-- Two states agree in the mode and in all that the soundness of the views looks at. -/
structure ViewsKept (a s : State) : Prop where
  mode : s.mode = a.mode
  unit : ∀ side, (a.unit side).SameViews (s.unit side)

namespace ViewsKept
variable {a b s : State}

theorem refl (s : State) : ViewsKept s s := ⟨rfl, fun _ => ⟨rfl, rfl, rfl, rfl, rfl, rfl⟩⟩

theorem trans (h : ViewsKept a b) (h' : ViewsKept b s) : ViewsKept a s where
  mode := h'.mode.trans h.mode
  unit side :=
    have k := h.unit side
    have k' := h'.unit side
    ⟨k'.main.trans k.main, k'.wide.trans k.wide, k'.mainState.trans k.mainState, k'.wideState.trans k.wideState,
      k'.shape.trans k.shape, k'.line.trans k.line⟩

/-- Moves that keep the expected line change nothing that the views depend on. -/
theorem of_moves (m : Moves a s) (hline : ∀ side, s.line side = a.line side) : ViewsKept a s where
  mode := m.rest.mode
  unit side :=
    have k := m.outline side
    ⟨congrArg Outline.main k, congrArg Outline.wide k, congrArg Outline.mainState k, congrArg Outline.wideState k,
      congrArg Outline.shape k, hline side⟩

/-- A change of the mode-free rest alone. -/
theorem of_unit_eq (hm : s.mode = a.mode) (hu : ∀ side, s.unit side = a.unit side) : ViewsKept a s where
  mode := hm
  unit side := by rw [hu side]; exact (refl a).unit side

theorem modUnit (s : State) (side : Side) {f : SideUnit → SideUnit}
    (h : (s.unit side).SameViews (f (s.unit side))) : ViewsKept s (s.modUnit side f) where
  mode := by simp
  unit x := by
    by_cases hx : x = side
    · rw [hx, State.modUnit_unit_same]; exact h
    · rw [State.modUnit_unit_of_ne _ hx]; exact (refl s).unit x

/-- A change of ingest that keeps the frame's treatment, mark and line. -/
theorem modIngest (s : State) (side : Side) {f : Ingest → Ingest}
    (hshape : (f (s.unit side).ingest).shape = (s.unit side).ingest.shape)
    (hline : (f (s.unit side).ingest).line = (s.unit side).ingest.line) : ViewsKept s (s.modIngest side f) :=
  .modUnit s side ⟨rfl, rfl, rfl, rfl, hshape, hline⟩

theorem modChannel (s : State) (side : Side) (f : Link → Link) : ViewsKept s (s.modChannel side f) :=
  .modUnit s side ⟨rfl, rfl, rfl, rfl, rfl, rfl⟩

/-- A change of both views of a side that keeps their states and those of their buffers. -/
theorem modViews (s : State) (side : Side) {f : ViewUnit → ViewUnit}
    (hring : ∀ u, (f u).ring.statuses = u.ring.statuses := by intro; rfl)
    (hstate : ∀ u, (f u).state = u.state := by intro; rfl) : ViewsKept s (s.modViews side f) :=
  .modUnit s side ⟨hring _, hring _, hstate _, hstate _, rfl, rfl⟩

/-- A change of one view that keeps its state and those of its buffers. -/
theorem modView (s : State) (v : View) {f : ViewUnit → ViewUnit}
    (hring : ∀ u, (f u).ring.statuses = u.ring.statuses := by intro; rfl)
    (hstate : ∀ u, (f u).state = u.state := by intro; rfl) : ViewsKept s (s.modView v f) := by
  refine .modUnit s v.side ?_
  cases hm : v.isMain
  · exact ⟨rfl, hring _, rfl, hstate _, rfl, rfl⟩
  · exact ⟨hring _, rfl, hstate _, rfl, rfl, rfl⟩

theorem symm (h : ViewsKept a s) : ViewsKept s a where
  mode := h.mode.symm
  unit side :=
    have k := h.unit side
    ⟨k.main.symm, k.wide.symm, k.mainState.symm, k.wideState.symm, k.shape.symm, k.line.symm⟩

theorem ringsSound (h : ViewsKept a s) (hs : a.ringsSound) : s.ringsSound := fun side => by
  rw [h.mode]; exact (h.unit side).ringsSound (hs side)

theorem fillingSound (h : ViewsKept a s) {side : Side} (hs : (a.unit side).fillingSound) :
    (s.unit side).fillingSound :=
  hs.imp (h.unit side).quiet_iff.2 (h.unit side).mayFill_iff.2

theorem viewsSound (h : ViewsKept a s) (hs : a.viewsSound) : s.viewsSound := by
  rw [State.viewsSound_iff] at *
  exact ⟨h.ringsSound hs.1, fun side => h.fillingSound (hs.2 side)⟩

theorem quiet (h : ViewsKept a s) {side : Side} (hq : (a.unit side).quiet) : (s.unit side).quiet :=
  (h.unit side).quiet_iff.2 hq

theorem mayFill (h : ViewsKept a s) {side : Side} (hq : (a.unit side).ingest.mayFill) :
    (s.unit side).ingest.mayFill := (h.unit side).mayFill_iff.2 hq

end ViewsKept

end Sys2Proof.Machine
end

section
/-! SUPPORT. The steps of a frame keep the views sound: a buffer becomes FILLING with a developed frame, and is freed or
made READY before the frame leaves or stops being accepted (R13, R18, R50 to R52). -/

namespace Sys2Proof.Machine

variable {a s : State} {side : Side}

/-! ### A side in between -/

/-- All is sound but for the frame behind the FILLING buffers of one side. -/
def State.viewsSoundBut (s : State) (side : Side) : Prop :=
  s.ringsSound ∧ ∀ x, x ≠ side → (s.unit x).fillingSound

theorem State.viewsSound_iff_but (s : State) (side : Side) :
    s.viewsSound ↔ s.viewsSoundBut side ∧ (s.unit side).fillingSound := by
  rw [State.viewsSound_iff, State.viewsSoundBut, and_assoc]
  refine and_congr_right fun _ => ⟨fun h => ⟨fun x _ => h x, h side⟩, fun h x => ?_⟩
  by_cases hx : x = side
  · exact hx ▸ h.2
  · exact h.1 x hx

theorem State.viewsSound.but (h : s.viewsSound) (side : Side) : s.viewsSoundBut side :=
  ((s.viewsSound_iff_but side).1 h).1

theorem State.viewsSound.fillingSound (h : s.viewsSound) (side : Side) : (s.unit side).fillingSound :=
  ((s.viewsSound_iff_but side).1 h).2

theorem State.viewsSoundBut.of_quiet (h : s.viewsSoundBut side) (hq : (s.unit side).quiet) : s.viewsSound :=
  (s.viewsSound_iff_but side).2 ⟨h, .inl hq⟩

theorem State.viewsSoundBut.of_mayFill (h : s.viewsSoundBut side) (hf : (s.unit side).ingest.mayFill) :
    s.viewsSound := (s.viewsSound_iff_but side).2 ⟨h, .inr hf⟩

theorem ViewsKept.viewsSoundBut (k : ViewsKept a s) (h : a.viewsSoundBut side) : s.viewsSoundBut side :=
  ⟨k.ringsSound h.1, fun x hx => k.fillingSound (h.2 x hx)⟩

/-- A change of one side keeps the rest sound when it keeps that side's rings and pictures. -/
theorem State.viewsSoundBut.modUnit (h : s.viewsSoundBut side) {f : SideUnit → SideUnit}
    (hf : (s.unit side).ringsSound s.mode → (f (s.unit side)).ringsSound s.mode) :
    (s.modUnit side f).viewsSoundBut side := by
  refine ⟨fun x => ?_, fun x hx => ?_⟩
  · rw [State.modUnit_mode]
    by_cases hx : x = side
    · rw [hx, State.modUnit_unit_same]; exact hf (h.1 side)
    · rw [State.modUnit_unit_of_ne _ hx]; exact h.1 x
  · rw [State.modUnit_unit_of_ne _ hx]; exact h.2 x hx

theorem State.viewsSoundBut.modIngest (h : s.viewsSoundBut side) (f : Ingest → Ingest) :
    (s.modIngest side f).viewsSoundBut side := h.modUnit fun hr => ⟨hr.main, hr.wide, hr.pictured⟩

/-- A ring operation that keeps a sound ring sound, and its SHOWN buffers. -/
theorem State.viewsSoundBut.modViews (h : s.viewsSoundBut side) {f : ViewUnit → ViewUnit}
    (hsound : ∀ u, u = (s.unit side).main ∨ u = (s.unit side).wide → u.ring.sound → (f u).ring.sound)
    (hshown : ∀ u, u.pictured → (f u).pictured) : (s.modViews side f).viewsSoundBut side :=
  h.modUnit fun hr =>
    { main := hsound _ (.inl rfl) hr.main
      wide := hsound _ (.inr rfl) hr.wide
      pictured := fun hrun => ⟨hshown _ (hr.pictured hrun).1, hshown _ (hr.pictured hrun).2⟩ }

/-- A frame that may not be accepted any more has no FILLING buffer. -/
theorem State.viewsSound.quiet_of_not_mayFill (h : s.viewsSound) (hf : ¬ (s.unit side).ingest.mayFill) :
    (s.unit side).quiet := (h.fillingSound side).resolve_right hf

theorem Ingest.not_mayFill_of_none {i : Ingest} (h : i.frame = none) : ¬ i.mayFill := by
  rintro ⟨f, hf, -⟩
  rw [h] at hf
  cases hf

/-- Which frames may still be accepted. -/
theorem Ingest.mayFill_iff_of_some {i : Ingest} {f : FrameRecord} (h : i.frame = some f) :
    i.mayFill ↔ f.developed = true ∧ (f.treatment = .undecided ∧ f.nextLine = 0 ∨ f.treatment = .accepted) := by
  simp [Ingest.mayFill, h]

/-! ### Frames and FILLING buffers -/

@[simp] theorem State.setFrame_quiet (s : State) (side : Side) (f : Option FrameRecord) :
    ((s.setFrame side f).unit side).quiet ↔ (s.unit side).quiet := by
  simp [State.setFrame, SideUnit.quiet]

theorem State.setFrame_viewsSound_of_quiet (h : s.viewsSound) (hq : (s.unit side).quiet) (f : Option FrameRecord) :
    (s.setFrame side f).viewsSound := ((h.but side).modIngest _).of_quiet ((s.setFrame_quiet side f).2 hq)

/-- A new frame record in place of the old one: what may be accepted still may. -/
theorem State.setFrame_viewsSound (h : s.viewsSound) {f : FrameRecord}
    (hf : (s.unit side).ingest.mayFill →
      f.developed = true ∧ (f.treatment = .undecided ∧ f.nextLine = 0 ∨ f.treatment = .accepted)) :
    (s.setFrame side (some f)).viewsSound := by
  rcases h.fillingSound side with hq | hm
  · exact State.setFrame_viewsSound_of_quiet h hq _
  · exact ((h.but side).modIngest _).of_mayFill (by simpa [State.setFrame, Ingest.mayFill] using hf hm)

theorem State.freeFilling_quiet (s : State) (side : Side) : ((s.freeFilling side).unit side).quiet := by
  simp [State.freeFilling, State.modRings, SideUnit.quiet]

theorem State.freeFilling_viewsSound (h : s.viewsSound) (side : Side) : (s.freeFilling side).viewsSound :=
  ((h.but side).modViews (fun _ _ => Ring.freeFilling_sound) fun u hu => by
    simpa [ViewUnit.pictured] using hu).of_quiet (s.freeFilling_quiet side)

/-! ### Ends of a frame -/

theorem State.clearRecovery_viewsKept (s : State) (side : Side) : ViewsKept s (s.clearRecovery side) :=
  .modViews s side

theorem State.setPass_viewsKept (s : State) (side : Side) (p : Pass) : ViewsKept s (s.setPass side p) :=
  .modUnit s side ⟨rfl, rfl, rfl, rfl, rfl, rfl⟩

theorem State.abandonFramePass_viewsKept (s : State) (side : Side) : ViewsKept s (s.abandonFramePass side) := by
  unfold State.abandonFramePass
  split
  next => exact .refl s
  next => exact s.setPass_viewsKept side _
  next =>
    split
    · exact s.setPass_viewsKept side _
    · exact .refl s

theorem State.raise_viewsKept (s : State) (d : Descriptor) (w : List Word) : ViewsKept s (s.raise d w) :=
  .of_unit_eq rfl fun _ => by simp

theorem State.activate_viewsKept (s : State) (d : Descriptor) (w : List Word) : ViewsKept s (s.activate d w) :=
  .of_unit_eq rfl fun _ => by simp

theorem State.deactivate_viewsKept (s : State) (d : Descriptor) : ViewsKept s (s.deactivate d) :=
  .of_unit_eq rfl fun _ => by simp

theorem State.level_viewsKept (s : State) (d : Descriptor) (on : Bool) (w : List Word) :
    ViewsKept s (s.level d on w) := .of_unit_eq (by simp) fun _ => by simp

theorem State.reaskSlot_viewsKept (s : State) (side : Side) : ViewsKept s (s.reaskSlot side) :=
  .of_moves (.reaskSlot side .start) (by simp)

theorem State.reportConcealed_viewsKept (s : State) (side : Side) (f : FrameRecord) :
    ViewsKept s (s.reportConcealed side f) := by
  unfold State.reportConcealed
  split
  · exact s.raise_viewsKept _ _
  · exact .refl s

/-- The FILLING buffers are freed, the recovery counts cleared and the pass abandoned (R13, R18). -/
def State.dropPicture (s : State) (side : Side) : State :=
  ((s.freeFilling side).clearRecovery side).abandonFramePass side

theorem State.dropPicture_viewsKept (s : State) (side : Side) :
    ViewsKept (s.freeFilling side) (s.dropPicture side) :=
  (State.clearRecovery_viewsKept _ side).trans (State.abandonFramePass_viewsKept _ side)

theorem State.dropPicture_setFrame_viewsSound (h : s.viewsSound) (side : Side) (f : Option FrameRecord) :
    ((s.dropPicture side).setFrame side f).viewsSound :=
  have k := s.dropPicture_viewsKept side
  State.setFrame_viewsSound_of_quiet (k.viewsSound (State.freeFilling_viewsSound h side))
    (k.quiet (s.freeFilling_quiet side)) f

theorem State.dropPicture_setFrame_quiet (s : State) (side : Side) (f : Option FrameRecord) :
    (((s.dropPicture side).setFrame side f).unit side).quiet :=
  (State.setFrame_quiet _ side f).2 ((s.dropPicture_viewsKept side).quiet (s.freeFilling_quiet side))

theorem State.abortFrame_eq (s : State) (side : Side) (f : FrameRecord) (reason : AbortReason) :
    s.abortFrame side f reason =
      (((s.raise (.cam side .frameAbort) [reason.code]).reportConcealed side f).dropPicture side).setFrame side
        none := rfl

theorem State.abortFrame_viewsSound (h : s.viewsSound) (side : Side) (f : FrameRecord) (reason : AbortReason) :
    (s.abortFrame side f reason).viewsSound :=
  State.dropPicture_setFrame_viewsSound
    (((s.raise_viewsKept _ _).trans (State.reportConcealed_viewsKept _ side f)).viewsSound h) side none

theorem State.abortAndReask_viewsSound (h : s.viewsSound) (side : Side) (f : FrameRecord) (reason : AbortReason) :
    (s.abortAndReask side f reason).viewsSound :=
  (State.reaskSlot_viewsKept _ side).viewsSound (State.abortFrame_viewsSound h side f reason)

/-- A discarded frame has no FILLING buffer (R13). -/
theorem State.viewsSound.quiet_of_discarded (h : s.viewsSound) {f : FrameRecord}
    (hf : (s.unit side).ingest.frame = some f) (hd : f.treatment.discarded = true) : (s.unit side).quiet := by
  refine h.quiet_of_not_mayFill ?_
  rw [Ingest.mayFill_iff_of_some hf]
  rintro ⟨-, ⟨ht, -⟩ | ht⟩ <;> simp [ht, Treatment.discarded] at hd

/-- After the end of the frame before, a side is quiet. -/
theorem State.endBefore_viewsSound (h : s.viewsSound) (side : Side) :
    (s.endBefore side).viewsSound ∧ ((s.endBefore side).unit side).quiet := by
  unfold State.endBefore
  split
  next hnone => exact ⟨h, h.quiet_of_not_mayFill (Ingest.not_mayFill_of_none hnone)⟩
  next f hf =>
    split
    next hd =>
      have hq := h.quiet_of_discarded hf hd
      exact ⟨State.setFrame_viewsSound_of_quiet h hq none, (s.setFrame_quiet side none).2 hq⟩
    next =>
      exact ⟨State.abortFrame_viewsSound h side f .noEnd, by
        rw [State.abortFrame_eq]; exact State.dropPicture_setFrame_quiet _ side none⟩

/-! ### Frame starts (R5, R50) -/

theorem State.latchCopies_viewsKept (s : State) (side : Side) : ViewsKept s (s.latchCopies side).2 :=
  .of_moves (.latchCopies side .start) (by simp)

theorem State.latchIngest_viewsKept (s : State) (side : Side) : ViewsKept s (s.latchIngest side).2 :=
  .of_moves (.latchIngest side .start) (by simp [State.latchIngest])

theorem State.modComposer_viewsKept (s : State) (side : Side) (f : Composer → Composer) :
    ViewsKept s (s.modComposer side f) := .modUnit s side ⟨rfl, rfl, rfl, rfl, rfl, rfl⟩

theorem State.measurePeriod_viewsKept (s : State) (side : Side) (t : IngestTiming) :
    ViewsKept s (s.measurePeriod side t) := by
  unfold State.measurePeriod
  split
  next => exact .refl s
  next =>
    exact ((ViewsKept.modIngest s side rfl rfl).trans (State.level_viewsKept _ _ _ _)).trans
      (State.modComposer_viewsKept _ side _)

theorem State.stampFrameStart_viewsKept (s : State) (side : Side) : ViewsKept s (s.stampFrameStart side) := by
  have k : ViewsKept s (s.modIngest side fun i => { i with prevStart := some s.now }) := .modIngest s side rfl rfl
  unfold State.stampFrameStart
  cases side
  · exact k.trans (.of_unit_eq rfl (by rintro (_ | _) <;> rfl))
  · exact k.trans (.of_unit_eq rfl (by rintro (_ | _) <;> rfl))

/-- A buffer of each ring of a quiet side becomes FILLING for a frame that may be accepted (R50). -/
theorem State.beginFilling_viewsSound (h : s.viewsSound) (hq : (s.unit side).quiet) (hf : (s.unit side).ingest.mayFill)
    (rec : BufferRecord) : (s.modRings side fun r => r.beginFilling rec).viewsSound := by
  refine State.viewsSoundBut.of_mayFill (side := side) ((h.but side).modViews ?_ ?_) ?_
  · rintro u (rfl | rfl) hs
    · exact Ring.beginFilling_sound hs hq.1 rec
    · exact Ring.beginFilling_sound hs hq.2 rec
  · intro u hu
    simpa [ViewUnit.pictured] using hu
  · rw [State.modRings, State.modViews_unit_same]
    exact hf

theorem State.beginPass_viewsSound (h : s.viewsSound) (hq : (s.unit side).quiet)
    (hf : (s.unit side).ingest.mayFill) : (s.beginPass side).viewsSound := by
  unfold State.beginPass
  have klatch := s.latchCopies_viewsKept side
  generalize s.latchCopies side = latched at klatch ⊢
  have k := klatch.trans (State.setPass_viewsKept _ side (.camera (CameraPass.fresh latched.1)))
  exact State.beginFilling_viewsSound (k.viewsSound h) (k.quiet hq) (k.mayFill hf) _

theorem State.takeFrameStart_viewsSound (h : s.viewsSound) (side : Side) : (s.takeFrameStart side).viewsSound := by
  obtain ⟨hend, hquiet⟩ := State.endBefore_viewsSound h side
  unfold State.takeFrameStart
  dsimp only
  have klatch := (s.endBefore side).latchIngest_viewsKept side
  generalize (s.endBefore side).latchIngest side = latched at klatch ⊢
  obtain ⟨⟨p, t⟩, s2⟩ := latched
  dsimp only at klatch ⊢
  generalize hs4 : State.stampFrameStart _ side = s4
  have k4 : ViewsKept (s.endBefore side) s4 := by
    rw [← hs4]
    exact (((klatch.trans (.modIngest _ side rfl rfl)).trans (State.deactivate_viewsKept _ _)).trans
      (State.measurePeriod_viewsKept _ side t)).trans (State.stampFrameStart_viewsKept _ side)
  have hframe : (s4.setFrame side (some (newFrame s4 side p t))).viewsSound :=
    State.setFrame_viewsSound_of_quiet (k4.viewsSound hend) (k4.quiet hquiet) _
  have kask : ∀ a : State, ViewsKept a ((a.reaskSlot side).patternFrameStart side) := fun a =>
    .of_moves (.patternFrameStart side (.reaskSlot side .start)) (by simp)
  refine (kask _).viewsSound ?_
  split
  next hd =>
    refine State.beginPass_viewsSound hframe ((State.setFrame_quiet s4 side _).2 (k4.quiet hquiet)) ?_
    rw [State.setFrame, State.modIngest_unit_same, Ingest.mayFill_iff_of_some rfl]
    exact ⟨hd, .inl ⟨rfl, rfl⟩⟩
  next => exact hframe

/-! ### The embedded line (R7 to R13) -/

theorem State.checkCamera_viewsKept (s : State) (side : Side) (f : FrameRecord) (id : Half) (status : Byte) :
    ViewsKept s (s.checkCamera side f id status) :=
  (s.level_viewsKept _ _ _).trans (State.level_viewsKept _ _ _ _)

theorem State.passCounter_viewsKept (s : State) (side : Side) (counter : Byte) :
    ViewsKept s (s.passCounter side counter) := by
  unfold State.passCounter
  split
  next => exact .modIngest _ side rfl rfl
  next =>
    split
    · exact .modIngest _ side rfl rfl
    · exact (s.raise_viewsKept _ _).trans (.modIngest _ side rfl rfl)

theorem State.consumePattern_viewsSound (h : s.viewsSound) (side : Side) (f : FrameRecord) :
    (s.consumePattern side f).viewsSound :=
  have k := (s.freeFilling side).abandonFramePass_viewsKept side
  State.setFrame_viewsSound_of_quiet (k.viewsSound (State.freeFilling_viewsSound h side))
    (k.quiet (s.freeFilling_quiet side)) _

theorem State.consumeSlot_viewsSound (h : s.viewsSound) (side : Side) (f : FrameRecord) :
    (s.consumeSlot side f).viewsSound := by
  have k1 : ViewsKept (s.freeFilling side) ((s.freeFilling side).modIngest side fun i => { i with slotHeld := false }) :=
    .modIngest _ side rfl rfl
  unfold State.consumeSlot
  dsimp only
  generalize (s.freeFilling side).modIngest side (fun i => { i with slotHeld := false }) = s1 at k1 ⊢
  have hdone : ∀ s2 w, ViewsKept s1 s2 → ((s2.setPass side (.reference (ReferencePass.fresh w .paced))).setFrame side
      (some { f with treatment := .slot })).viewsSound := fun s2 w k2 =>
    have k := (k1.trans k2).trans (s2.setPass_viewsKept side _)
    State.setFrame_viewsSound_of_quiet (k.viewsSound (State.freeFilling_viewsSound h side))
      (k.quiet (s.freeFilling_quiet side)) _
  split
  · exact hdone _ _ (.refl s1)
  · exact hdone _ _ (s1.latchCopies_viewsKept side)

/-- The frame that may be accepted is (R12). -/
theorem State.acceptFrame_viewsSound (h : s.viewsSound) {f : FrameRecord} (counter : Byte)
    (hf : (s.unit side).ingest.mayFill → f.developed = true) : (s.acceptFrame side f counter).viewsSound := by
  have k : ViewsKept s (s.modRings side fun r => r.setCounter counter) :=
    .modViews s side fun _ => Ring.setCounter_statuses _ _
  exact State.setFrame_viewsSound (k.viewsSound h) fun hm => ⟨hf (k.symm.mayFill hm), .inr rfl⟩

theorem State.routeFrame_viewsSound (h : s.viewsSound) {f : FrameRecord} (counter : Byte) (testPattern : Bool)
    (hf : (s.unit side).ingest.mayFill → f.developed = true) :
    (s.routeFrame side f counter testPattern).viewsSound := by
  unfold State.routeFrame
  split
  · split
    · exact State.consumePattern_viewsSound h side f
    · exact State.dropPicture_setFrame_viewsSound ((s.raise_viewsKept _ _).viewsSound h) side _
  · split
    · exact State.consumeSlot_viewsSound h side f
    · exact State.acceptFrame_viewsSound h counter hf

theorem State.settleFrame_viewsSound (h : s.viewsSound) {f : FrameRecord} (codes : List Code)
    (hf : (s.unit side).ingest.mayFill → f.developed = true) : (s.settleFrame side f codes).viewsSound := by
  unfold State.settleFrame
  dsimp only
  have k := s.checkCamera_viewsKept side f (reportId codes) (reportByte codes 4)
  split
  · exact State.dropPicture_setFrame_viewsSound ((k.trans (State.activate_viewsKept _ _ _)).viewsSound h) side _
  · have k2 := k.trans (State.passCounter_viewsKept _ side (reportByte codes 2))
    exact State.routeFrame_viewsSound (k2.viewsSound h) _ _ fun hm => hf (k2.symm.mayFill hm)

/-! ### Active lines (R14, R15) -/

theorem State.takeRow_viewsKept (s : State) (side : Side) (w : WorkingCopies) (row : Nat × List Developed) :
    ViewsKept s (s.takeRow side w row) :=
  .modUnit s side ⟨Ring.writeRow_statuses .., Ring.writeRow_statuses .., rfl, rfl, rfl, rfl⟩

theorem State.takeRows_viewsKept (rows : List (Nat × List Developed)) (s : State) (side : Side) (w : WorkingCopies) :
    ViewsKept s (rows.foldl (fun s' row => s'.takeRow side w row) s) := by
  induction rows generalizing s with
  | nil => exact .refl s
  | cons row rest ih => exact (s.takeRow_viewsKept side w row).trans (ih _)

theorem State.developLine_viewsKept (s : State) (side : Side) (y : Nat) (codes : List Code) :
    ViewsKept s (s.developLine side y codes) := by
  unfold State.developLine
  split
  next => exact .refl s
  next p _ =>
    exact (State.takeRows_viewsKept _ s side p.copies).trans (.modUnit _ side ⟨rfl, rfl, rfl, rfl, rfl, rfl⟩)
  next =>
    split
    · exact s.setPass_viewsKept side _
    · exact .refl s

theorem State.takeLine_viewsSound (h : s.viewsSound) {f : FrameRecord} (good : Bool) (codes : List Code)
    (hf : (s.unit side).ingest.mayFill → f.developed = true ∧ f.treatment = .accepted) :
    (s.takeLine side f good codes).viewsSound := by
  unfold State.takeLine
  dsimp only
  split
  · exact State.abortAndReask_viewsSound h side _ _
  · have hframe : (s.setFrame side (some (f.takeLine good (passedOn f good codes)))).viewsSound :=
      State.setFrame_viewsSound h fun hm => ⟨(hf hm).1, .inr (hf hm).2⟩
    split
    · exact (State.developLine_viewsKept _ side _ _).viewsSound hframe
    · exact hframe

theorem State.lineArrives_viewsSound (h : s.viewsSound) (side : Side) (index : Nat) (good : Bool)
    (codes : List Code) : (s.lineArrives side index good codes).viewsSound := by
  unfold State.lineArrives
  split
  next => exact h
  next f hf =>
    have hmay := Ingest.mayFill_iff_of_some hf
    have habort : ∀ reason, (s.abortAndReask side f reason).viewsSound := State.abortAndReask_viewsSound h side f
    have htaken : f.treatment ≠ .undecided →
        (if f.nextLine = 1281 then s.abortAndReask side f .long
          else if index ≠ f.nextLine then s.abortAndReask side f .outOfOrder
          else s.takeLine side f good codes).viewsSound := by
      intro hne
      split
      · exact habort _
      · split
        · exact habort _
        · exact State.takeLine_viewsSound h good codes fun hm =>
            ⟨(hmay.1 hm).1, (hmay.1 hm).2.resolve_left fun hu => hne hu.1⟩
    split
    case h_1 => exact h
    case h_2 => exact h
    case h_3 =>
      split
      · exact habort _
      · split
        · exact habort _
        · exact State.settleFrame_viewsSound h codes fun hm => (hmay.1 hm).1
    case h_4 ht => exact htaken (by simp [ht])
    case h_5 ht => exact htaken (by simp [ht])
    case h_6 ht => exact htaken (by simp [ht])

/-! ### Completions (R17, R51) -/

theorem State.detectFrozen_viewsKept (s : State) (side : Side) (f : FrameRecord) :
    ViewsKept s (s.detectFrozen side f) := by
  unfold State.detectFrozen
  dsimp only
  have k1 : ∀ run : Nat, ViewsKept s (s.modIngest side fun j =>
      { j with identicalRun := run, lastSignature := some f.signature }) := fun _ => .modIngest s side rfl rfl
  split <;> split
  · exact (k1 _).trans (State.activate_viewsKept _ _ _)
  · exact k1 _
  · exact ((k1 _).trans (State.deactivate_viewsKept _ _)).trans (State.activate_viewsKept _ _ _)
  · exact (k1 _).trans (State.deactivate_viewsKept _ _)

theorem State.publish_viewsKept (s : State) (side : Side) : ViewsKept s (s.publish side) := by
  unfold State.publish
  split
  next => exact .of_moves (.lightCompletion side _ (.trackerCompletion side _ (.setPass side _ .start))) (by simp)
  next => exact .refl s

theorem State.tellSequencer_viewsKept (s : State) (side : Side) (f : FrameRecord) :
    ViewsKept s (s.tellSequencer side f) := by
  unfold State.tellSequencer
  split
  next => exact .of_moves (.acceptedCompletion side _ .start) (by simp)
  next => exact .of_moves (.patternCompletion side _ .start) (by simp)
  next =>
    unfold State.endPaced
    split
    next =>
      split
      · exact .of_moves (.referenceDone side _ .start) (by simp)
      · exact .refl s
    next => exact .refl s
  next => exact .refl s

/-- The views of an accepted developed frame take its picture, and no FILLING buffer is left (R51). -/
theorem State.completeViews_viewsSound (h : s.viewsSoundBut side) {f : FrameRecord}
    (hq : ¬ (f.treatment = .accepted ∧ f.developed = true) → (s.unit side).quiet) :
    (s.completeViews side f).viewsSound := by
  unfold State.completeViews
  split
  · refine (State.publish_viewsKept _ side).viewsSound
      (State.viewsSoundBut.of_quiet (side := side) (h.modViews ?_ ?_) ?_)
    · exact fun u _ => Ring.makeReady_sound
    · intro u hu
      simpa [ViewUnit.pictured, ViewUnit.complete] using hu
    · simp [SideUnit.quiet, ViewUnit.complete]
  next hne => exact h.of_quiet (hq hne)

theorem State.completeFrame_viewsSound (h : s.viewsSound) {f : FrameRecord}
    (hf : (s.unit side).ingest.frame = some f) (hline : f.nextLine = 1281) :
    (s.completeFrame side f).viewsSound := by
  have hbut : (s.setFrame side none).viewsSoundBut side := (h.but side).modIngest _
  have hquiet : ¬ (f.treatment = .accepted ∧ f.developed = true) → ((s.setFrame side none).unit side).quiet := by
    intro hne
    refine (s.setFrame_quiet side none).2 (h.quiet_of_not_mayFill ?_)
    rw [Ingest.mayFill_iff_of_some hf]
    rintro ⟨hd, ⟨-, h0⟩ | ht⟩
    · omega
    · exact hne ⟨ht, hd⟩
  unfold State.completeFrame
  dsimp only
  have k1 := ((s.setFrame side none).deactivate_viewsKept (.cam side .counterStall)).trans
    (State.reportConcealed_viewsKept _ side f)
  generalize ((s.setFrame side none).deactivate (.cam side .counterStall)).reportConcealed side f = s1 at k1 ⊢
  have k2 : ViewsKept s1 (s1.modIngest side fun i => { i with lastActive := some (measured (since f.start s1.now)) }) :=
    .modIngest s1 side rfl rfl
  generalize s1.modIngest side _ = s2 at k2 ⊢
  have k3 : ViewsKept s2 (if f.treatment = .accepted then s2.detectFrozen side f else s2) := by
    split
    · exact s2.detectFrozen_viewsKept side f
    · exact .refl s2
  have k := (k1.trans k2).trans k3
  exact ((State.modComposer_viewsKept _ side _).trans (State.tellSequencer_viewsKept _ side f)).viewsSound
    (State.completeViews_viewsSound (k.viewsSoundBut hbut) fun hne => k.quiet (hquiet hne))

theorem State.takeFrameEnd_viewsSound (h : s.viewsSound) (side : Side) : (s.takeFrameEnd side).viewsSound := by
  unfold State.takeFrameEnd
  split
  next => exact h
  next f hf =>
    split
    next hd => exact State.setFrame_viewsSound_of_quiet h (h.quiet_of_discarded hf hd) none
    next =>
      split
      next hline => exact State.completeFrame_viewsSound h hf hline
      next => exact State.abortAndReask_viewsSound h side f .short

/-! ### The camera link (R2, R3) -/

theorem State.lockLossInRun_viewsKept (s : State) (side : Side) : ViewsKept s (s.lockLossInRun side) :=
  .of_moves (.lockLossInRun side .start) (by simp)

theorem State.clearTracker_viewsKept (s : State) (side : Side) : ViewsKept s (s.clearTracker side) :=
  .of_moves (.clearTracker side .start) (by simp)

theorem State.emptyLatest_viewsKept (s : State) (side : Side) : ViewsKept s (s.emptyLatest side) := by
  cases side
  · exact .of_unit_eq rfl (by rintro (_ | _) <;> rfl)
  · exact .refl s

theorem State.grantHeld_viewsKept (s : State) (side : Side) : ViewsKept s (s.grantHeld side) := by
  unfold State.grantHeld
  split
  · exact (ViewsKept.modIngest s side rfl rfl).trans (.of_moves (.beginImmediate side .start) (by simp))
  · exact .refl s

theorem State.loseLock_viewsSound (h : s.viewsSound) (side : Side) : (s.loseLock side).viewsSound := by
  have k1 : ViewsKept s ((s.modIngest side fun i => { i with link := .noSignal }).activate (.cam side .linkLost) []) :=
    (ViewsKept.modIngest s side rfl rfl).trans (State.activate_viewsKept _ _ _)
  have hend := (State.endBefore_viewsSound (k1.viewsSound h) side).1
  exact (((((State.clearTracker_viewsKept _ side).trans (State.emptyLatest_viewsKept _ side)).trans
    (.modIngest _ side rfl rfl)).trans (State.grantHeld_viewsKept _ side)).trans
    (State.lockLossInRun_viewsKept _ side)).viewsSound hend

theorem State.gainLock_viewsKept (s : State) (side : Side) : ViewsKept s (s.gainLock side) := by
  unfold State.gainLock
  exact ((((ViewsKept.modIngest s side rfl rfl).trans (State.deactivate_viewsKept _ _)).trans
    (State.deactivate_viewsKept _ _)).trans (State.deactivate_viewsKept _ _)).trans
    (State.clearTracker_viewsKept _ side)

end Sys2Proof.Machine
end

section
/-! SUPPORT. Every other step keeps the views sound: the work of an output frame start, the DDR transfers, the commands
and the resets. -/

namespace Sys2Proof.Machine

variable {s : State}

/-! ### Views at an output frame start (R53, R62, R63) -/

/-- A change of one view keeps the views sound when it keeps its ring sound, makes no buffer FILLING, and in RUN keeps
the picture behind it. -/
theorem State.modView_viewsSound (h : s.viewsSound) (v : View) {f : ViewUnit → ViewUnit}
    (hsound : (s.view v).ring.sound → (f (s.view v)).ring.sound)
    (hfill : (s.view v).ring.has .filling = false → (f (s.view v)).ring.has .filling = false)
    (hpic : s.mode = .run → (s.view v).pictured → (f (s.view v)).pictured) : (s.modView v f).viewsSound := by
  rw [State.viewsSound_iff_but _ v.side]
  refine ⟨(h.but v.side).modUnit fun hr => ?_, (h.fillingSound v.side).imp (fun hq => ?_) fun hm => ?_⟩
  · cases hv : v.isMain <;> simp only [State.view, hv, Bool.false_eq_true, if_false, if_true] at hsound hpic ⊢
    · exact ⟨hr.main, hsound hr.wide, fun hrun => ⟨(hr.pictured hrun).1, hpic hrun (hr.pictured hrun).2⟩⟩
    · exact ⟨hsound hr.main, hr.wide, fun hrun => ⟨hpic hrun (hr.pictured hrun).1, (hr.pictured hrun).2⟩⟩
  · rw [State.modView, State.modUnit_unit_same]
    cases hv : v.isMain <;> simp only [State.view, hv, Bool.false_eq_true, if_false, if_true] at hfill ⊢
    · exact ⟨hq.1, hfill hq.2⟩
    · exact ⟨hfill hq.1, hq.2⟩
  · rw [State.modView, State.modUnit_unit_same]
    cases v.isMain <;> exact hm

/-- A view that comes out of an output frame start in LIVE or HOLDING has a SHOWN buffer. -/
theorem viewOutcome_pictured {mode : Mode} {u : ViewUnit} (h : mode = .run → u.pictured) (reaction : Reaction)
    (beyond : Bool)
    (hs : (viewOutcome mode (u.turn reaction) reaction beyond (u.ring.has .ready)).1.showsPicture = true) :
    (u.turn reaction).ring.has .shown = true := by
  unfold viewOutcome at hs
  cases mode
  case config => cases hs
  case run =>
    have hshown : u.state.showsPicture = true → (u.turn reaction).ring.has .shown = true := fun hu => by
      simp [ViewUnit.turn, h rfl hu]
    dsimp only at hs
    split at hs
    next hst => exact hshown (by rw [show u.state = .live from hst]; rfl)
    next hst => exact hshown (by rw [show u.state = .holding from hst]; rfl)
    next =>
      split at hs
      next hr =>
        simp only [recovers, Bool.and_eq_true] at hr
        exact hr.2
      next => cases hs
    next => cases hs

theorem State.reportLost_viewsKept (s : State) (v : View) (cause : Option Word) :
    ViewsKept s (s.reportLost v cause) := by
  cases cause
  · exact .refl s
  · exact s.raise_viewsKept _ _

theorem State.outputView_viewsSound (h : s.viewsSound) (v : View) : (s.outputView v).viewsSound := by
  have kmeasure : ∀ a : State, ViewsKept a (a.measureLatency v) := fun a =>
    (ViewsKept.modView a v).trans (State.level_viewsKept _ _ _ _)
  unfold State.outputView
  dsimp only
  refine (((State.reportLost_viewsKept _ v _).trans (kmeasure _)).trans (.modView _ v)).viewsSound
    (State.modView_viewsSound h v Ring.advance_sound ?_ ?_)
  · intro hf
    simpa [ViewUnit.become, ViewUnit.turn] using hf
  · exact fun hrun hp hs => viewOutcome_pictured (fun _ => hp) _ _ hs

theorem State.latch_viewsKept (s : State) (k : Kind) (offs : List Nat) : ViewsKept s (s.latch k offs).2 :=
  .of_moves (.latch k offs .start) (by simp)

theorem State.latchLimits_viewsKept (s : State) (side : Side) : ViewsKept s (s.latchLimits side) := by
  unfold State.latchLimits
  exact (s.latch_viewsKept .view _).trans (.modUnit _ side ⟨rfl, rfl, rfl, rfl, rfl, rfl⟩)

theorem State.latchPolicy_viewsKept (s : State) (side : Side) : ViewsKept s (s.latchPolicy side) := by
  unfold State.latchPolicy
  exact (s.latch_viewsKept .policy _).trans (State.modComposer_viewsKept _ side _)

theorem State.latchOutputTiming_viewsKept (s : State) (side : Side) : ViewsKept s (s.latchOutputTiming side).2 :=
  s.latch_viewsKept .timing _

theorem State.captureTrailer_viewsKept (s : State) (side : Side) : ViewsKept s (s.captureTrailer side) := by
  unfold State.captureTrailer
  exact (ViewsKept.modChannel s side _).trans (State.modComposer_viewsKept _ side _)

theorem State.takeOutputStart_viewsSound (h : s.viewsSound) (side : Side) : (s.takeOutputStart side).viewsSound := by
  unfold State.takeOutputStart
  dsimp only
  have k1 := ((s.latchLimits_viewsKept side).trans (State.latchPolicy_viewsKept _ side)).trans
    (State.latchOutputTiming_viewsKept _ side)
  have hviews := State.outputView_viewsSound (State.outputView_viewsSound (k1.viewsSound h) side.mainView) side.wideView
  have k2 : ∀ a : State, ViewsKept a (a.backlightStart side) := fun a =>
    .of_moves (.backlightStart side .start) (by simp)
  exact (((State.modComposer_viewsKept _ side _).trans (k2 _)).trans (State.captureTrailer_viewsKept _ side)).viewsSound
    hviews

/-! ### DDR transfers (R54, R55) -/

theorem State.writeFails_viewsSound (h : s.viewsSound) (v : View) : (s.writeFails v).viewsSound := by
  unfold State.writeFails
  split
  · refine (State.raise_viewsKept _ _ _).viewsSound (State.modView_viewsSound h v Ring.freeFilling_sound ?_ ?_)
    · simp
    · intro _ hp
      simpa [ViewUnit.pictured] using hp
  · exact h

theorem State.regionRead_viewsKept (s : State) (v : View) (ok : Bool) : ViewsKept s (s.regionRead v ok) := by
  have k : ∀ r, ViewsKept s (s.modView v fun u => { u with region := some r }) := fun r =>
    .modView s v
  unfold State.regionRead
  split
  next =>
    split
    · exact k _
    · exact (k _).trans (State.raise_viewsKept _ _ _)
  next => exact .refl s

/-! ### The command channel -/

theorem State.telemetry_viewsKept (s : State) (side : Side) (lux : Nat) (status : Byte) :
    ViewsKept s (s.telemetry side lux status) := .of_moves (.telemetry side _ _ .start) (by simp)

theorem State.acceptCommand_viewsKept (s : State) (link : Side) (c : Command) :
    ViewsKept s (s.acceptCommand link c) := by
  unfold State.acceptCommand
  split
  · exact .modChannel s link _
  · exact (ViewsKept.modChannel s link _).trans (State.raise_viewsKept _ _ _)

theorem State.routePacket_viewsKept (s : State) (link : Side) (c : Command) : ViewsKept s (s.routePacket link c) := by
  unfold State.routePacket
  split
  · split
    · exact s.telemetry_viewsKept link _ _
    · exact s.raise_viewsKept _ _
  · exact s.acceptCommand_viewsKept link c

theorem State.takeByte_viewsKept (s : State) (link : Side) (b : Byte) : ViewsKept s (s.takeByte link b) := by
  unfold State.takeByte
  split
  next =>
    unfold State.takeLen
    split
    · exact .modChannel s link _
    · exact s.raise_viewsKept _ _
  next =>
    unfold State.collect
    split
    · exact .modChannel s link _
    · have kreceiver : ViewsKept s (s.setReceiver link .waitLen) := .modChannel s link _
      refine kreceiver.trans ?_
      unfold State.checkPacket
      split
      · exact State.routePacket_viewsKept _ link _
      · exact State.raise_viewsKept _ _ _

theorem State.packetTimedOut_viewsKept (s : State) (link : Side) : ViewsKept s (s.packetTimedOut link) := by
  unfold State.packetTimedOut
  split
  next => exact .refl s
  next =>
    split
    · exact (ViewsKept.modChannel s link _).trans (State.raise_viewsKept _ _ _)
    · exact .refl s

/-- A command row keeps the views sound when its body does. -/
theorem State.runCommand_viewsSound (h : s.viewsSound) (link : Side) (c : Command) {body : State → Reply × State}
    (hbody : ∀ a : State, a.viewsSound → (body a).2.viewsSound) : (s.runCommand link c body).viewsSound := by
  unfold State.runCommand
  dsimp only
  have kdeliver : ViewsKept s (s.deliver link c) := by
    unfold State.deliver
    split
    · exact s.acceptCommand_viewsKept link c
    · exact .refl s
  split
  · have ktake : ViewsKept (s.deliver link c) ((s.deliver link c).takeCommand link) :=
      (ViewsKept.modChannel _ link _).trans (.of_unit_eq rfl (by rintro (_ | _) <;> rfl))
    refine ViewsKept.viewsSound ?_ (hbody _ ((kdeliver.trans ktake).viewsSound h))
    exact (ViewsKept.modChannel _ link _).trans (.of_unit_eq rfl (by rintro (_ | _) <;> rfl))
  · exact kdeliver.viewsSound h

/-! ### The bodies of the commands -/

theorem withNone_state {p : State → Prop} {param : List Byte} {f : Reply × State} (h : p s) (hf : p f.2) :
    p (withNone param s f).2 := by
  unfold withNone; split <;> assumption

theorem withSide_state {p : State → Prop} {param : List Byte} {f : Side → Reply × State} (h : p s)
    (hf : ∀ side, p (f side).2) : p (withSide param s f).2 := by
  unfold withSide
  split
  next => split <;> simp only [hf, h]
  next => exact h

theorem echoBody_state (param : List Byte) (s : State) : (echoBody param s).2 = s := by
  unfold echoBody; split <;> rfl

theorem State.clearSuperseded_viewsKept (s : State) : ViewsKept s s.clearSuperseded := by
  unfold State.clearSuperseded
  exact (ViewsKept.modViews s .left).trans (.modViews _ .right)

theorem getStatusBody_viewsSound (h : s.viewsSound) (param : List Byte) : (getStatusBody param s).2.viewsSound :=
  withNone_state h (s.clearSuperseded_viewsKept.viewsSound h)

/-- In RUN every view begins in LOST, which needs no picture (R64, R198). -/
theorem State.goRun_viewsSound (h : s.viewsSound) : s.goRun.viewsSound := by
  rw [State.viewsSound_iff] at *
  obtain ⟨hr, hf⟩ := h
  have lost : ∀ u : ViewUnit, u.startLost.pictured := fun u hu => by cases hu
  refine ⟨fun side => ?_, fun side => ?_⟩
  · cases side
    · exact ⟨(hr .left).main, (hr .left).wide, fun _ => ⟨lost _, lost _⟩⟩
    · exact ⟨(hr .right).main, (hr .right).wide, fun _ => ⟨lost _, lost _⟩⟩
  · cases side
    · exact hf .left
    · exact hf .right

theorem enterRunBody_viewsSound (h : s.viewsSound) (param : List Byte) : (enterRunBody param s).2.viewsSound := by
  unfold enterRunBody
  refine withNone_state h ?_
  split
  · exact h
  · split
    · exact h
    · exact State.goRun_viewsSound h

/-- ENTER_CONFIG frees every buffer of a side, and no view needs a picture any more (R52, R199). -/
theorem State.stopSide_viewsSound (h : s.viewsSound) (hm : s.mode = .config) (side : Side) :
    (s.stopSide side).viewsSound ∧ (s.stopSide side).mode = .config := by
  unfold State.stopSide
  dsimp only
  generalize hs1 : s.modIngest side _ = s1
  have h1 : s1.viewsSoundBut side := hs1 ▸ (h.but side).modIngest _
  have hm1 : s1.mode = .config := by rw [← hs1, State.modIngest_mode, hm]
  generalize hs2 : s1.setPass side _ = s2
  have k2 : ViewsKept s1 s2 := hs2 ▸ s1.setPass_viewsKept side _
  have hm2 : s2.mode = .config := k2.mode.trans hm1
  have hfree : (s2.modRings side Ring.freeAll).viewsSound := by
    refine State.viewsSoundBut.of_quiet (side := side) ((k2.viewsSoundBut h1).modUnit fun hr => ?_) ?_
    · exact ⟨Ring.freeAll_sound _, Ring.freeAll_sound _, fun hrun => by rw [hm2] at hrun; cases hrun⟩
    · rw [State.modRings, State.modViews_unit_same]
      exact ⟨rfl, rfl⟩
  have k : ViewsKept (s2.modRings side Ring.freeAll)
      ((((s2.modRings side Ring.freeAll).clearTracker side).modLight side fun l => { l with phase := .idle }).endRun
        side) :=
    .of_moves (.endRun side (.modLight side _ (.clearTracker side .start))) (by simp)
  exact ⟨k.viewsSound hfree, k.mode.trans (by rw [State.modRings, State.modViews_mode, hm2])⟩

theorem State.goConfig_viewsSound (h : s.viewsSound) : s.goConfig.viewsSound := by
  have h0 : ({ s with mode := .config } : State).viewsSound := by
    rw [State.viewsSound_iff] at *
    refine ⟨fun side => ?_, fun side => ?_⟩
    · have hr := h.1 side
      cases side <;> exact ⟨hr.main, hr.wide, fun hrun => by cases hrun⟩
    · have hf := h.2 side
      cases side <;> exact hf
  obtain ⟨hl, hm⟩ := State.stopSide_viewsSound h0 rfl .left
  exact (State.stopSide_viewsSound hl hm .right).1

theorem enterConfigBody_viewsSound (h : s.viewsSound) (param : List Byte) :
    (enterConfigBody param s).2.viewsSound := by
  unfold enterConfigBody
  refine withNone_state h ?_
  split
  · exact h
  · exact State.goConfig_viewsSound h

theorem softResetBody_viewsSound (h : s.viewsSound) (link : Side) (param : List Byte) :
    (softResetBody link param s).2.viewsSound :=
  withNone_state h ((ViewsKept.of_unit_eq rfl (by rintro (_ | _) <;> rfl)).viewsSound h)

theorem setChannelBody_viewsSound (h : s.viewsSound) (link : Side) (param : List Byte) :
    (setChannelBody link param s).2.viewsSound := by
  unfold setChannelBody
  split
  next => exact (ViewsKept.modChannel s link _).viewsSound h
  next => exact h

/-! Tables -/

theorem State.setTables_viewsKept (s : State) (ts : TableStore) : ViewsKept s { s with tables := ts } :=
  .of_unit_eq rfl (by rintro (_ | _) <;> rfl)

theorem State.setFaults_viewsKept (s : State) (fm : FaultManager) : ViewsKept s { s with faults := fm } :=
  .of_unit_eq rfl (by rintro (_ | _) <;> rfl)

theorem loadTableBody_viewsSound (h : s.viewsSound) (param : List Byte) : (loadTableBody param s).2.viewsSound := by
  unfold loadTableBody
  split
  next =>
    split
    next => exact h
    next =>
      split
      · exact h
      · split
        · exact h
        · split
          · exact h
          · exact (s.setTables_viewsKept _).viewsSound h
  next => exact h

theorem State.readWords_viewsKept (s : State) (k : Kind) (b : Bank) (offs : List Nat) :
    ViewsKept s (s.readWords k b offs).2 :=
  .of_moves (.readWords k b offs .start) fun side => by simp [State.line]

theorem State.switchBanks_viewsKept (s : State) (k : Kind) : ViewsKept s (s.switchBanks k) := by
  unfold State.switchBanks
  dsimp only
  split
  · exact (s.setTables_viewsKept _).trans (State.deactivate_viewsKept _ _)
  · exact s.setTables_viewsKept _

theorem State.resetOrigins_viewsKept (s : State) (ws : List (Nat × Word)) : ViewsKept s (s.resetOrigins ws) := by
  have k : ∀ (a : State) (v : View), ViewsKept a (a.modView v fun u => u.resetOrigin ws v) := fun a v =>
    .modView a v
  exact (((k _ .leftMain).trans (k _ .leftWide)).trans (k _ .rightMain)).trans (k _ .rightWide)

theorem acceptedCommit_viewsKept (s : State) (k : Kind) (crc : Nat) : ViewsKept s (acceptedCommit k crc s).2 := by
  have kread := s.readWords_viewsKept k (s.tables.kind k).live.other (List.range k.size)
  unfold acceptedCommit
  split
  next hr => rwa [hr] at kread
  next ws s1 hr =>
    rw [hr] at kread
    split
    · exact kread
    · split
      · exact kread
      · refine kread.trans ((s1.switchBanks_viewsKept k).trans ?_)
        unfold commitSucceeds
        dsimp only
        split
        · exact State.resetOrigins_viewsKept _ ws
        · exact .refl _

theorem commitTableBody_viewsSound (h : s.viewsSound) (param : List Byte) :
    (commitTableBody param s).2.viewsSound := by
  unfold commitTableBody
  split
  next =>
    split
    next => exact h
    next =>
      split
      · exact h
      · split
        · exact h
        · exact (acceptedCommit_viewsKept s _ _).viewsSound h
  next => exact h

theorem acceptedRead_viewsKept (s : State) (k : Kind) (shadow : Bool) (off count : Nat) :
    ViewsKept s (acceptedRead k shadow off count s).2 := by
  have kread := s.readWords_viewsKept k (namedBank s.tables k shadow) (List.range' off (min count (k.size - off)))
  unfold acceptedRead
  split
  next hr => rwa [hr] at kread
  next hr => rwa [hr] at kread

theorem readTableBody_viewsSound (h : s.viewsSound) (param : List Byte) : (readTableBody param s).2.viewsSound := by
  unfold readTableBody
  split
  next =>
    split
    next =>
      split
      · exact h
      · split
        · exact h
        · exact (acceptedRead_viewsKept s _ _ _ _).viewsSound h
    next => exact h
  next => exact h

theorem lockTableBody_viewsSound (h : s.viewsSound) (param : List Byte) : (lockTableBody param s).2.viewsSound := by
  unfold lockTableBody
  split
  next =>
    split
    next => exact h
    next => exact (s.setTables_viewsKept _).viewsSound h
  next => exact h

/-! Views, light, glare and faults -/

theorem setPanBody_viewsSound (h : s.viewsSound) (param : List Byte) : (setPanBody param s).2.viewsSound := by
  unfold setPanBody
  split
  next =>
    split
    next => exact h
    next v _ =>
      unfold acceptedPan
      exact ((s.latch_viewsKept .view (panWords v)).trans (.modView _ v)).viewsSound h
  next => exact h

theorem State.modLight_viewsKept (s : State) (side : Side) (f : Light → Light) : ViewsKept s (s.modLight side f) :=
  .of_moves (.modLight side f .start) (by simp)

theorem forceLightBody_viewsSound (h : s.viewsSound) (param : List Byte) : (forceLightBody param s).2.viewsSound := by
  unfold forceLightBody
  split
  next =>
    split
    next => exact (s.modLight_viewsKept _ _).viewsSound h
    next => exact h
  next => exact h

theorem getGlareBody_viewsSound (h : s.viewsSound) (param : List Byte) : (getGlareBody param s).2.viewsSound :=
  withSide_state h fun side => (ViewsKept.of_moves (.modGlare side _ .start) (by simp)).viewsSound h

theorem State.clearEvents_viewsKept (s : State) (m : BitVec 51) : ViewsKept s (s.clearEvents m) :=
  (s.latch_viewsKept .policy [0]).trans (State.setFaults_viewsKept _ _)

theorem clearEventsBody_viewsSound (h : s.viewsSound) (param : List Byte) :
    (clearEventsBody param s).2.viewsSound := by
  unfold clearEventsBody
  split
  · exact h
  · split
    next => exact h
    next m _ =>
      split
      · exact h
      · exact (s.clearEvents_viewsKept m).viewsSound h

theorem setEventEnableBody_viewsSound (h : s.viewsSound) (param : List Byte) :
    (setEventEnableBody param s).2.viewsSound := by
  unfold setEventEnableBody
  split
  · exact h
  · split
    next =>
      split
      · exact h
      · exact (s.setFaults_viewsKept _).viewsSound h
    next => exact h

theorem readLogBody_viewsSound (h : s.viewsSound) (param : List Byte) : (readLogBody param s).2.viewsSound := by
  unfold readLogBody
  split
  next =>
    split
    · exact h
    · exact (s.setFaults_viewsKept _).viewsSound h
  next => exact h

/-! Self-test -/

theorem State.endRun_viewsKept (s : State) (side : Side) : ViewsKept s (s.endRun side) :=
  .of_moves (.endRun side .start) (by simp)

theorem startSelftestBody_viewsSound (h : s.viewsSound) (param : List Byte) :
    (startSelftestBody param s).2.viewsSound := by
  unfold startSelftestBody
  split
  next =>
    split
    next side selection _ _ =>
      unfold startChecked
      dsimp only
      split
      · exact h
      · split
        · exact h
        · split
          · exact h
          · exact (ViewsKept.of_moves (.startRun side selection .start) (by simp)).viewsSound h
    next => exact h
  next => exact h

theorem abortSelftestBody_viewsSound (h : s.viewsSound) (param : List Byte) :
    (abortSelftestBody param s).2.viewsSound :=
  withSide_state h fun side => (s.endRun_viewsKept side).viewsSound h

theorem clearSelftestBody_viewsSound (h : s.viewsSound) (param : List Byte) :
    (clearSelftestBody param s).2.viewsSound :=
  withSide_state h fun side => (ViewsKept.of_moves (.modSequencer side _ .start) (by simp)).viewsSound h

/-! ### The table store's own steps -/

theorem State.copyWord_viewsKept (s : State) (k : Kind) (c : SyncCopy) : ViewsKept s (s.copyWord k c) := by
  have kread : ViewsKept s (s.readWord k (s.tables.kind k).live c.next).2 :=
    .of_moves (.readWord k _ _ .start) fun side => by simp [State.line]
  exact kread.trans (State.setTables_viewsKept _ _)

theorem State.syncStep_viewsKept (s : State) (k : Kind) : ViewsKept s (s.syncStep k) := by
  unfold State.syncStep
  split
  next => exact .refl s
  next =>
    split
    · exact s.copyWord_viewsKept k _
    · exact .refl s

theorem State.scrub_viewsKept (s : State) : ViewsKept s s.scrub := by
  unfold State.scrub
  split
  next => exact .refl s
  next addr _ =>
    have kpos := s.setTables_viewsKept { s.tables with scrubPosition := (addr + 1) % Config.ramWords }
    dsimp only
    split
    next => exact kpos
    next => exact kpos.trans (.of_moves (.readWord _ _ _ .start) fun side => by simp [State.line])

theorem State.scrubIfDue_viewsKept (s : State) : ViewsKept s s.scrubIfDue := by
  unfold State.scrubIfDue
  split
  next => exact .refl s
  next =>
    split
    · exact (s.setTables_viewsKept _).trans (State.scrub_viewsKept _)
    · exact .refl s

/-! ### Resets (R48, R74) -/

/-- A state whose views all stand in NOTREADY with FREE buffers is sound. -/
theorem State.viewsSound_of_notReady (hr : ∀ v, (s.view v).ring.statuses = [.free, .free, .free])
    (hs : ∀ v, (s.view v).state = .notReady) : s.viewsSound := by
  have sound : ∀ v, (s.view v).ring.sound := fun v => by rw [Ring.sound, hr v]; decide
  have quiet : ∀ v, (s.view v).ring.has .filling = false := fun v => by
    rw [Bool.eq_false_iff, Ne, Ring.has_iff, hr v]; decide
  have pictured : ∀ v, (s.view v).pictured := fun v hp => by rw [hs v] at hp; cases hp
  rw [State.viewsSound_iff]
  refine ⟨fun side => ?_, fun side => .inl ?_⟩
  · cases side
    · exact ⟨sound .leftMain, sound .leftWide, fun _ => (s.pictured_iff.1 pictured) .left⟩
    · exact ⟨sound .rightMain, sound .rightWide, fun _ => (s.pictured_iff.1 pictured) .right⟩
  · cases side
    · exact ⟨quiet .leftMain, quiet .leftWide⟩
    · exact ⟨quiet .rightMain, quiet .rightWide⟩

theorem State.standCamera_viewsKept (s : State) (side : Side) : ViewsKept s (s.standCamera side) := by
  unfold State.standCamera
  split
  · exact s.activate_viewsKept _ _
  · exact .refl s

theorem State.standDisplay_viewsKept (s : State) (side : Side) : ViewsKept s (s.standDisplay side) := by
  unfold State.standDisplay
  dsimp only
  split <;> split
  · exact .refl s
  · exact s.activate_viewsKept _ _
  · exact s.activate_viewsKept _ _
  · exact (s.activate_viewsKept _ _).trans (State.activate_viewsKept _ _ _)

theorem State.standTables_viewsKept (s : State) : ViewsKept s s.standTables := by
  unfold State.standTables
  split
  next => exact .refl s
  next => exact s.activate_viewsKept _ _

theorem State.takeStanding_viewsKept (s : State) : ViewsKept s s.takeStanding :=
  (((((s.raise_viewsKept _ _).trans (State.standCamera_viewsKept _ _)).trans (State.standCamera_viewsKept _ _)).trans
    (State.standDisplay_viewsKept _ _)).trans (State.standDisplay_viewsKept _ _)).trans (State.standTables_viewsKept _)

theorem State.performSoftReset_viewsSound (s : State) : s.performSoftReset.viewsSound := by
  unfold State.performSoftReset
  refine (State.takeStanding_viewsKept _).viewsSound (State.viewsSound_of_notReady ?_ ?_)
  · rintro (_ | _ | _ | _) <;> rfl
  · rintro (_ | _ | _ | _) <;> rfl

/-! ### Every step -/

theorem State.advance_viewsKept (s : State) (t : Time) : ViewsKept s (s.advance t) :=
  .of_unit_eq rfl fun _ => by simp

/-- An answer whose next state has sound views. -/
def Answer.viewsSound (x : Answer) : Prop := ∀ s', x = .next s' → s'.viewsSound

theorem Answer.viewsSound.of_next {s' : State} (h : s'.viewsSound) : Answer.viewsSound (.next s') := by
  rintro _ ⟨⟩
  exact h

/-- A command row keeps the views sound when its body does. -/
theorem State.command_viewsSound (h : s.viewsSound) (t : Time) (link : Side) (kind tag : Byte) (param : List Byte)
    {body : State → Reply × State} (hbody : ∀ a : State, a.viewsSound → (body a).2.viewsSound) :
    Answer.viewsSound (s.command t link kind tag param body) :=
  .of_next (State.runCommand_viewsSound ((s.advance_viewsKept t).viewsSound h) link _ hbody)

/-- A step that acts on a condition, and otherwise changes nothing but device time. -/
theorem State.viewsSound_ite {a b : State} {c : Prop} [Decidable c] (ha : c → a.viewsSound) (hb : b.viewsSound) :
    (if c then a else b).viewsSound := by
  split
  next hc => exact ha hc
  next => exact hb

theorem execSoftResetInstant_viewsSound (h : s.viewsSound) (t : Time) : (execSoftResetInstant t s).viewsSound := by
  have h0 := (s.advance_viewsKept t).viewsSound h
  refine .of_next ?_
  split
  next => exact State.viewsSound_ite (fun _ => State.performSoftReset_viewsSound _) h0
  next => exact h0

theorem execReferencePassEnd_viewsSound (h : s.viewsSound) (t : Time) (side : Side) :
    (execReferencePassEnd t side s).viewsSound := by
  have h0 := (s.advance_viewsKept t).viewsSound h
  refine .of_next ?_
  split
  next p _ =>
    split
    next =>
      exact State.viewsSound_ite
        (fun _ => (ViewsKept.of_moves (.referenceDone side p.takeAll .start) (by simp)).viewsSound h0) h0
    next => exact h0
  next => exact h0

theorem execFrameStartStampExpiry_viewsSound (h : s.viewsSound) (t : Time) (side : Side) :
    (execFrameStartStampExpiry t side s).viewsSound := by
  have h0 := (s.advance_viewsKept t).viewsSound h
  have h1 := (ViewsKept.modIngest (s.advance t) side (f := fun i =>
    { i with prevStart := expireStamp (s.advance t).now i.prevStart }) rfl rfl).viewsSound h0
  refine .of_next ?_
  cases side
  · exact (ViewsKept.of_unit_eq rfl (by rintro (_ | _) <;> rfl)).viewsSound h1
  · exact h1

theorem exec_viewsSound (h : s.viewsSound) (i : Instr) : Answer.viewsSound (exec i s) := by
  have h0 : ∀ t, (s.advance t).viewsSound := fun t => (s.advance_viewsKept t).viewsSound h
  have kept : ∀ {t} {s' : State}, ViewsKept (s.advance t) s' → Answer.viewsSound (.next s') := fun k =>
    .of_next (k.viewsSound (h0 _))
  have guarded : ∀ {t} {s' : State} {c : Prop} [Decidable c], ((s.advance t).viewsSound → s'.viewsSound) →
      Answer.viewsSound (.next (if c then s' else s.advance t)) := fun hs =>
    .of_next (State.viewsSound_ite (fun _ => hs (h0 _)) (h0 _))
  have command : ∀ t link kind tag param {body : State → Reply × State},
      (∀ a : State, a.viewsSound → (body a).2.viewsSound) →
        Answer.viewsSound (s.command t link kind tag param body) := fun t link kind tag param _ hb =>
    State.command_viewsSound h t link kind tag param hb
  cases i with
  | powerOn => exact .of_next (State.viewsSound_of_notReady (by rintro (_ | _ | _ | _) <;> rfl)
      (by rintro (_ | _ | _ | _) <;> rfl))
  | tableClearEnd t => exact guarded (ViewsKept.of_unit_eq rfl (by rintro (_ | _) <;> rfl)).viewsSound
  | softResetInstant t => exact execSoftResetInstant_viewsSound h t
  | linkLost t side => exact guarded fun ha => State.loseLock_viewsSound ha side
  | linkLock t side => exact guarded (State.gainLock_viewsKept _ side).viewsSound
  | frameStart t side => exact guarded fun ha => State.takeFrameStart_viewsSound ha side
  | embeddedLine t side good codes => exact guarded fun ha => State.lineArrives_viewsSound ha side 0 good codes
  | activeLine t side index good codes => exact guarded fun ha => State.lineArrives_viewsSound ha side index good codes
  | frameEnd t side => exact guarded fun ha => State.takeFrameEnd_viewsSound ha side
  | referencePassEnd t side => exact execReferencePassEnd_viewsSound h t side
  | silentTimerExpiry t side =>
    exact guarded ((ViewsKept.modIngest _ side rfl rfl).trans (State.activate_viewsKept _ _ _)).viewsSound
  | frameStartStampExpiry t side => exact execFrameStartStampExpiry_viewsSound h t side
  | completionStampExpiry t side => exact kept (t := t) (State.modComposer_viewsKept _ side _)
  | ddrWriteFail t v => exact .of_next (State.writeFails_viewsSound (h0 t) v)
  | regionReadDone t v ok => exact kept (t := t) (State.regionRead_viewsKept _ v ok)
  | outputFrameStart t side => exact guarded fun ha => State.takeOutputStart_viewsSound ha side
  | returnLaneByte t link b =>
    refine .of_next ?_
    split
    · exact h0 t
    · exact (State.takeByte_viewsKept _ link b).viewsSound (h0 t)
  | packetTimeout t link => exact kept (t := t) (State.packetTimedOut_viewsKept _ link)
  | ambientTimerExpiry t side => exact guarded (ViewsKept.of_moves (.ambientLost side .start) (by simp)).viewsSound
  | pulseExpiry t d => exact kept (t := t) (State.setFaults_viewsKept _ _)
  | holdOffExpiry t => exact guarded (State.setFaults_viewsKept _ _).viewsSound
  | selftestStepTimeout t side =>
    exact guarded (ViewsKept.of_moves (.stepTimeout side .start) fun x => State.settle_line _ side x .fail).viewsSound
  | storeWriteDone t side ok => exact kept (t := t) (.of_moves (.writeDone side ok .start) (by simp))
  | storeReadDone t side data => exact kept (t := t) (.of_moves (.readDone side data .start) (by simp))
  | syncWordCopy t k => exact kept (t := t) (State.syncStep_viewsKept _ k)
  | scrubVisit t upsets =>
    exact kept (t := t) ((State.setTables_viewsKept _ _).trans (State.scrubIfDue_viewsKept _))
  | echo t link tag param => exact command _ _ _ _ _ fun a ha => by rwa [echoBody_state]
  | getStatus t link tag param => exact command _ _ _ _ _ fun _ ha => getStatusBody_viewsSound ha param
  | enterRun t link tag param => exact command _ _ _ _ _ fun _ ha => enterRunBody_viewsSound ha param
  | enterConfig t link tag param => exact command _ _ _ _ _ fun _ ha => enterConfigBody_viewsSound ha param
  | softReset t link tag param => exact command _ _ _ _ _ fun _ ha => softResetBody_viewsSound ha link param
  | setChannel t link tag param => exact command _ _ _ _ _ fun _ ha => setChannelBody_viewsSound ha link param
  | loadTable t link tag param => exact command _ _ _ _ _ fun _ ha => loadTableBody_viewsSound ha param
  | commitTable t link tag param => exact command _ _ _ _ _ fun _ ha => commitTableBody_viewsSound ha param
  | readTable t link tag param => exact command _ _ _ _ _ fun _ ha => readTableBody_viewsSound ha param
  | tableStatus t link tag param => exact command _ _ _ _ _ fun _ ha => withNone_state ha ha
  | lockTable t link tag param => exact command _ _ _ _ _ fun _ ha => lockTableBody_viewsSound ha param
  | setPan t link tag param => exact command _ _ _ _ _ fun _ ha => setPanBody_viewsSound ha param
  | forceLight t link tag param => exact command _ _ _ _ _ fun _ ha => forceLightBody_viewsSound ha param
  | getGlare t link tag param => exact command _ _ _ _ _ fun _ ha => getGlareBody_viewsSound ha param
  | getTiming t link tag param => exact command _ _ _ _ _ fun _ ha => withNone_state ha ha
  | getEvents t link tag param => exact command _ _ _ _ _ fun _ ha => withNone_state ha ha
  | clearEvents t link tag param => exact command _ _ _ _ _ fun _ ha => clearEventsBody_viewsSound ha param
  | setEventEnable t link tag param => exact command _ _ _ _ _ fun _ ha => setEventEnableBody_viewsSound ha param
  | readLog t link tag param => exact command _ _ _ _ _ fun _ ha => readLogBody_viewsSound ha param
  | startSelftest t link tag param => exact command _ _ _ _ _ fun _ ha => startSelftestBody_viewsSound ha param
  | abortSelftest t link tag param => exact command _ _ _ _ _ fun _ ha => abortSelftestBody_viewsSound ha param
  | getSelftest t link tag param => exact command _ _ _ _ _ fun _ ha => withSide_state ha fun _ => ha
  | clearSelftest t link tag param => exact command _ _ _ _ _ fun _ ha => clearSelftestBody_viewsSound ha param
  | badKindCommand t link tag kind param =>
    simp only [exec, execBadKindCommand]
    split
    · exact .of_next (h0 t)
    · exact command _ _ _ _ _ fun _ ha => ha

/-- Settles O57: the step at the front of the queue keeps the views sound, as each step does. -/
theorem everyStepKeepsTheViewsSound : Obligations.EveryStepKeepsTheViewsSound := by
  unfold Obligations.EveryStepKeepsTheViewsSound
  intro s s' h hstep
  unfold step at hstep
  split at hstep
  next => exact Answer.viewsSound.of_next h s' hstep
  next i rest _ =>
    have hrest : ({ s with pending := rest } : State).viewsSound :=
      (ViewsKept.of_unit_eq rfl (by rintro (_ | _) <;> rfl)).viewsSound h
    exact exec_viewsSound hrest i s' hstep

end Sys2Proof.Machine
end

section
/-! SUPPORT. The ends of the DDR transfers of the views (R54, R55), and the pixels of the regions (R66, R67). -/

namespace Sys2Proof.Machine

section
variable {s : State} {v : View} {t : Time}

theorem exec_ddrWriteFail (t : Time) (v : View) (s : State) :
    exec (.ddrWriteFail t v) s = .next ((s.advance t).writeFails v) := rfl

theorem exec_regionReadDone (t : Time) (v : View) (ok : Bool) (s : State) :
    exec (.regionReadDone t v ok) s = .next ((s.advance t).regionRead v ok) := rfl

theorem State.writeFails_filling (h : (s.view v).ring.has .filling = true) :
    s.writeFails v =
      (s.modView v fun u => { u with ring := u.ring.freeFilling }).raise (.view v .ddrError) [transferWrite] :=
  if_pos h

theorem State.writeFails_not_filling (h : (s.view v).ring.has .filling = false) : s.writeFails v = s := by
  simp [State.writeFails, h]

theorem State.regionRead_completes {p : Picture} {warn : Bool} (h : (s.view v).region = some (.reading p warn)) :
    s.regionRead v true = s.modView v fun u => { u with region := some (.shows p warn) } := by
  simp [State.regionRead, h]

theorem State.regionRead_fails {p : Picture} {warn : Bool} (h : (s.view v).region = some (.reading p warn)) :
    s.regionRead v false =
      (s.modView v fun u => { u with region := some .lost }).raise (.view v .ddrError) [transferRead] := by
  simp [State.regionRead, h]

theorem State.regionRead_not_reading (h : ∀ p warn, (s.view v).region ≠ some (.reading p warn)) (ok : Bool) :
    s.regionRead v ok = s := by
  unfold State.regionRead
  split
  next p warn hr => exact absurd hr (h p warn)
  next => rfl

end

/-! ### Pixels -/

/-- A view's region stands in the rows of its place in the output frame. -/
theorem outputPixel_region (s : State) (v : View) (u : Nat) {w : Nat} (hw : w < v.rows) :
    outputPixel s v.side u (if v.isMain then w else 512 + w) =
      (s.view v).region.bind fun r => regionPixel v r u w := by
  cases v <;> simp only [View.rows, View.isMain, if_true, Bool.false_eq_true, if_false] at hw ⊢ <;>
    simp only [outputPixel, State.view, View.isMain, View.side, Side.mainView, Side.wideView, if_true,
      Bool.false_eq_true, if_false]
  · rw [if_pos (by omega)]
  · rw [if_neg (by omega), if_pos (by omega), Nat.add_sub_cancel_left]
  · rw [if_pos (by omega)]
  · rw [if_neg (by omega), if_pos (by omega), Nat.add_sub_cancel_left]

/-- The camera-unavailable tile: its frame and its two diagonals (R67). -/
theorem unavailablePixel_eq (i j : Nat) :
    unavailablePixel i j =
      if (i ≤ 3 ∨ 60 ≤ i ∨ j ≤ 3 ∨ 60 ≤ j) ∨ (-2 ≤ (i : Int) - j ∧ (i : Int) - j ≤ 2) ∨
          (-2 ≤ (i : Int) + j - 63 ∧ (i : Int) + j - 63 ≤ 2) then greyPixel 1023
      else greyPixel 0 := by
  unfold unavailablePixel tileEdge
  refine if_congr ?_ rfl rfl
  simp only [Bool.or_eq_true, Bool.and_eq_true, decide_eq_true_eq]
  omega

theorem warningPixel_eq (i j : Nat) :
    warningPixel i j =
      if (28 ≤ i ∧ i ≤ 35) ∧ ((8 ≤ j ∧ j ≤ 43) ∨ (50 ≤ j ∧ j ≤ 57)) then greyPixel 0 else ⟨1023, 768, 0⟩ := by
  simp only [warningPixel, and_assoc]

/-- Settles O39: each end of a transfer by its two cases, and the pixels by what the region shows. -/
theorem ddrTransfersOfTheViewsEnd : Obligations.DdrTransfersOfTheViewsEnd := by
  unfold Obligations.DdrTransfersOfTheViewsEnd
  intro t v s s0
  have hview : s0.view v = s.view v := s.advance_view t v
  refine ⟨fun h => ?_, fun h => ?_, fun p warn h => ⟨?_, ?_⟩, fun h ok => ?_, ?_⟩
  · rw [exec_ddrWriteFail, State.writeFails_filling (hview ▸ h)]
    rfl
  · rw [exec_ddrWriteFail, State.writeFails_not_filling (hview ▸ h)]
  · rw [exec_regionReadDone, State.regionRead_completes (hview ▸ h)]
  · rw [exec_regionReadDone, State.regionRead_fails (hview ▸ h)]
    rfl
  · rw [exec_regionReadDone, State.regionRead_not_reading (hview ▸ h)]
  · intro u w hw grey top unavailable warning
    rw [outputPixel_region s v u hw]
    have hunavailable : ∀ i j, unavailablePixel i j = unavailable i j := unavailablePixel_eq
    have hwarning : ∀ i j, warningPixel i j = warning i j := warningPixel_eq
    cases (s.view v).region with
    | none => rfl
    | some r =>
      cases r with
      | grey => rfl
      | lost => simp only [Option.bind_some, regionPixel, lostPixel, hunavailable, and_assoc]; rfl
      | reading => rfl
      | shows p warn => simp only [Option.bind_some, regionPixel, picturePixel, hwarning, and_assoc]; rfl

end Sys2Proof.Machine
end

section
/-! SUPPORT. The ends of the transfers of the self-test buffer (R56, R149, R153). -/

namespace Sys2Proof.Machine

/-- The image signature is the CRC-16 over the region sample positions, row by row. -/
theorem imageSignature_eq (p : Picture) :
    imageSignature p = crc16 (regionRows.flatMap fun v => regionColumns.flatMap fun u =>
      channelBytes (pixelAt p u v)) := by
  simp only [imageSignature, crc16, crcFeed, List.foldl_flatMap, crcPixel_eq]

section
variable {s : State} {side : Side} {image : Picture} {owned : Bool} {rest : List Transfer}

theorem exec_storeWriteDone (t : Time) (side : Side) (ok : Bool) (s : State) :
    exec (.storeWriteDone t side ok) s = .next ((s.advance t).writeDone side ok) := rfl

theorem exec_storeReadDone (t : Time) (side : Side) (data : Option Picture) (s : State) :
    exec (.storeReadDone t side data) s = .next ((s.advance t).readDone side data) := rfl

/-- A change of the run between two changes of the self-test buffer. -/
theorem State.modBuffer_modRun_modBuffer (s : State) (side : Side) (f g : SelfTestBuffer → SelfTestBuffer)
    (r : Run → Run) :
    ((s.modBuffer side f).modRun side r).modBuffer side g = (s.modBuffer side (g ∘ f)).modRun side r := by
  cases side <;> rfl

/-- R149: a completed write is kept, and the run that asked for it asks for the read-back. -/
theorem State.writeDone_completes (h : (s.unit side).buffer.transfers = .write image owned :: rest) :
    s.writeDone side true =
      if owned then
        (s.modBuffer side fun _ => ⟨some image, rest ++ [.read true]⟩).modRun side fun r =>
          { r with writeSig := some (imageSignature image) }
      else s.modBuffer side fun _ => ⟨some image, rest⟩ := by
  cases owned <;> simp only [State.writeDone, h, if_true, Bool.false_eq_true, if_false]
  exact State.modBuffer_modRun_modBuffer ..

/-- R149: a failed write leaves the buffer EMPTY and fails the step that asked for it. -/
theorem State.writeDone_fails (h : (s.unit side).buffer.transfers = .write image owned :: rest) :
    s.writeDone side false =
      if owned then (s.modBuffer side fun _ => ⟨none, rest⟩).settle side .fail
      else s.modBuffer side fun _ => ⟨none, rest⟩ := by
  cases owned <;> simp [State.writeDone, h]

theorem State.writeDone_not_writing
    (h : ∀ image owned rest, (s.unit side).buffer.transfers ≠ .write image owned :: rest) (ok : Bool) :
    s.writeDone side ok = s := by
  unfold State.writeDone
  split
  next hw => exact absurd hw (h _ _ _)
  next => rfl

/-- R153: the read-back of an ended run goes unnoticed. -/
theorem State.readDone_unowned (h : (s.unit side).buffer.transfers = .read false :: rest) (data : Option Picture) :
    s.readDone side data = s.modBuffer side fun b => { b with transfers := rest } := by
  simp [State.readDone, h]

/-- R149: the read-back judges the step by the two signatures; a read of an EMPTY buffer fails. -/
theorem State.readDone_completes {r : Run} (h : (s.unit side).buffer.transfers = .read true :: rest)
    (hr : (s.unit side).sequencer.run = some r) (p : Picture) :
    s.readDone side (some p) =
      (s.modBuffer side fun b => { b with transfers := rest }).settle side
        (if (s.unit side).buffer.content ≠ none ∧ r.writeSig = some (imageSignature p) then .pass else .fail) := by
  simp [State.readDone, h, hr, verdict, Option.isSome_iff_ne_none, @eq_comm _ r.writeSig]

theorem State.readDone_fails {r : Run} (h : (s.unit side).buffer.transfers = .read true :: rest)
    (hr : (s.unit side).sequencer.run = some r) :
    s.readDone side none = (s.modBuffer side fun b => { b with transfers := rest }).settle side .fail := by
  simp [State.readDone, h, hr]

theorem State.readDone_not_reading (h : ∀ owned rest, (s.unit side).buffer.transfers ≠ .read owned :: rest)
    (data : Option Picture) : s.readDone side data = s := by
  unfold State.readDone
  split
  next hr => exact absurd hr (h _ _)
  next => rfl

end

/-- Settles O42: the transfer in progress is a write or a read of this kind, or there is none. -/
theorem storeTransfersEnd : Obligations.StoreTransfersEnd := by
  unfold Obligations.StoreTransfersEnd
  intro t side s s0 buffer sample signature
  have hunit : s0.unit side = s.unit side := s.advance_unit t side
  have htransfers : (s0.unit side).buffer.transfers = buffer.transfers := by rw [hunit]
  have hsignature : ∀ p, imageSignature p = signature p := fun p => by
    rw [imageSignature_eq, regionRows, regionColumns]
    simp only [List.flatMap_map]
    rfl
  refine ⟨fun image owned rest h => ⟨?_, ?_⟩, fun rest h data => ?_, fun rest r h hr => ⟨fun p => ?_, ?_⟩,
    fun h ok => ?_, fun h data => ?_⟩
  · rw [exec_storeWriteDone, State.writeDone_completes (htransfers.trans h), hsignature]
  · rw [exec_storeWriteDone, State.writeDone_fails (htransfers.trans h)]
  · rw [exec_storeReadDone, State.readDone_unowned (htransfers.trans h)]
  · rw [exec_storeReadDone, State.readDone_completes (htransfers.trans h) (hunit ▸ hr), hsignature, hunit]
  · rw [exec_storeReadDone, State.readDone_fails (htransfers.trans h) (hunit ▸ hr)]
  · rw [exec_storeWriteDone, State.writeDone_not_writing fun _ _ _ => htransfers ▸ h _ _ _]
  · rw [exec_storeReadDone, State.readDone_not_reading fun _ _ => htransfers ▸ h _ _]

end Sys2Proof.Machine
end

section
/-! SUPPORT. What a latch answers, what it leaves alone, and what it depends on (R156, R157, R160). -/

namespace Sys2Proof.Machine

/-! ### What a change of one side, the tables and the reports leaves alone -/

/-- Outside the fault manager and the table store, only the blocks of one side differ. -/
structure OnlySide (side : Side) (a s : State) : Prop where
  other : s.unit side.other = a.unit side.other
  rest : { s with left := a.left, right := a.right, faults := a.faults, tables := a.tables } = a

namespace OnlySide
variable {side : Side} {a b s : State}

theorem refl (side : Side) (s : State) : OnlySide side s s := ⟨rfl, rfl⟩

theorem trans (h : OnlySide side a b) (h' : OnlySide side b s) : OnlySide side a s where
  other := h'.other.trans h.other
  rest := by
    have hb := h.rest
    rw [← h'.rest] at hb
    exact hb

theorem modUnit (side : Side) (s : State) (f : SideUnit → SideUnit) : OnlySide side s (s.modUnit side f) where
  other := s.modUnit_unit_other side f
  rest := by cases side <;> rfl

/-- Only tables and faults differ. -/
theorem of_reports {ts : TableStore} {fm : FaultManager} (side : Side) (s : State) :
    OnlySide side s { s with tables := ts, faults := fm } := ⟨by cases side <;> rfl, rfl⟩

theorem clock (h : OnlySide side a s) : s.clock = a.clock := by
  have hclock := congrArg State.clock h.rest
  exact hclock

theorem mode (h : OnlySide side a s) : s.mode = a.mode := by
  have hmode := congrArg State.mode h.rest
  exact hmode

end OnlySide

theorem State.readWord_onlySide (side : Side) (s : State) (k : Kind) (b : Bank) (off : Nat) :
    OnlySide side s (s.readWord k b off).2 := by
  have corrupt : OnlySide side s (s.corruptKind k off) := by
    unfold State.corruptKind
    split
    · exact .refl side s
    · dsimp only
      split <;> exact .of_reports side s
  rcases s.readWord_cases k b off with ⟨-, h⟩ | ⟨-, h⟩ | ⟨-, h⟩ <;> rw [h]
  · exact .refl side s
  · exact .of_reports side s
  · dsimp only
    split
    · exact corrupt
    · exact .refl side s

/-! ### Reading word by word -/

/-- What every word read keeps, a reading of words keeps. -/
theorem State.readWords_induction {p : State → Prop} {k : Kind} {b : Bank} (offs : List Nat) {s : State} (h : p s)
    (hword : ∀ a off, off ∈ offs → p a → p (a.readWord k b off).2) : p (s.readWords k b offs).2 := by
  induction offs generalizing s with
  | nil => exact h
  | cons off rest ih =>
    have h1 := hword s off (List.mem_cons_self ..) h
    simp only [State.readWords]
    split
    next hr => rwa [hr] at h1
    next hr =>
      rw [hr] at h1
      have h2 := ih h1 fun a o ho => hword a o (List.mem_cons_of_mem _ ho)
      split
      next hr2 => rwa [hr2] at h2
      next hr2 => rwa [hr2] at h2

/-- What every word read keeps, a latch keeps. -/
theorem State.latch_induction {p : State → Prop} {k : Kind} {offs : List Nat} {s : State} (h : p s)
    (hword : ∀ a off, off ∈ offs → p a → p (a.readWord k (s.tables.kind k).live off).2) :
    p (s.latch k offs).2 := by
  have hread := State.readWords_induction offs h hword
  unfold State.latch
  split
  · split
    next hr => rwa [hr] at hread
    next hr => rwa [hr] at hread
  · exact h

theorem State.latch_onlySide (side : Side) (s : State) (k : Kind) (offs : List Nat) :
    OnlySide side s (s.latch k offs).2 :=
  State.latch_induction (p := OnlySide side s) (.refl side s) fun a _ _ h => h.trans (a.readWord_onlySide side ..)

/-! ### Other words and other kinds -/

/-- A write leaves every other word as it was, whatever the RAM lists. -/
theorem ramRead_ramWrite_other (ram : List (Nat × TableWord)) {addr other : Nat} (w : TableWord) (hne : other ≠ addr) :
    ramRead (ramWrite ram addr w) other = ramRead ram other := by
  induction ram with
  | nil => simp only [ramWrite]; split <;> simp [ramRead, hne.symm]
  | cons x rest ih =>
    obtain ⟨a, v⟩ := x
    simp only [ramWrite]
    split
    · simp only [ramRead, ih]
    · split
      next ha =>
        have hother : ¬ a = other := fun h => hne (h.symm.trans ha)
        split <;> simp [ramRead, hne.symm, hother]
      next => split <;> simp [ramRead, hne.symm]

/-- Reading a word changes no word at another address. -/
theorem State.readWord_word (s : State) {k k' : Kind} {b b' : Bank} {off off' : Nat}
    (h : ramAddress k' b' off' ≠ ramAddress k b off) :
    (s.readWord k b off).2.tables.word k' b' off' = s.tables.word k' b' off' := by
  have corrupt : (s.corruptKind k off).tables.ram = s.tables.ram := by
    rw [State.corruptKind_tables]; split <;> rfl
  rcases s.readWord_cases k b off with ⟨-, e⟩ | ⟨-, e⟩ | ⟨-, e⟩ <;> rw [e]
  · exact ramRead_ramWrite_other _ _ h
  · dsimp only
    split
    · rw [TableStore.word, corrupt, TableStore.word]
    · rfl

/-- Reading a word changes no other kind's record. -/
theorem State.readWord_kind (s : State) {j k : Kind} (h : j ≠ k) (b : Bank) (off : Nat) :
    (s.readWord k b off).2.tables.kind j = s.tables.kind j := by
  have corrupt : (s.corruptKind k off).tables.kind j = s.tables.kind j := by
    rw [State.corruptKind_tables]
    split
    · rfl
    · exact TableStore.modKind_corruptions_kind_of_ne _ h _ _
  rcases s.readWord_cases k b off with ⟨-, e⟩ | ⟨-, e⟩ | ⟨-, e⟩ <;> rw [e]
  · rfl
  · dsimp only
    split
    · exact corrupt
    · rfl

/-- A latch of one kind leaves the record and the words of every other kind. -/
theorem State.latch_other_kind (s : State) {j k : Kind} (h : j ≠ k) {offs : List Nat}
    (hoffs : ∀ off ∈ offs, off < k.size) :
    (s.latch k offs).2.tables.kind j = s.tables.kind j ∧
      ∀ b off, off < j.size → (s.latch k offs).2.tables.word j b off = s.tables.word j b off := by
  refine State.latch_induction (p := fun a => a.tables.kind j = s.tables.kind j ∧
    ∀ b off, off < j.size → a.tables.word j b off = s.tables.word j b off) ⟨rfl, fun _ _ _ => rfl⟩ ?_
  rintro a off hoff ⟨hkind, hword⟩
  refine ⟨(a.readWord_kind h _ _).trans hkind, fun b o ho => (a.readWord_word ?_).trans (hword b o ho)⟩
  exact fun e => h (ramAddress_inj ho (hoffs off hoff) e).1

/-! ### What is read -/

theorem State.readWords_cons (s : State) (k : Kind) (b : Bank) (off : Nat) (rest : List Nat) :
    (s.readWords k b (off :: rest)).1 =
      match (s.readWord k b off).1, ((s.readWord k b off).2.readWords k b rest).1 with
      | none, _ => .doubleError off
      | some d, .words ws => .words ((off, d) :: ws)
      | some _, .doubleError e => .doubleError e := by
  simp only [State.readWords]
  cases hr : s.readWord k b off with
  | mk d s1 =>
    cases d with
    | none => rfl
    | some d =>
      dsimp only
      cases hw : s1.readWords k b rest with
      | mk r s2 => cases r <;> rfl

theorem State.readWord_corrected {s : State} {k : Kind} {b : Bank} {off : Nat}
    (h : (s.tables.word k b off).errors < 2) : (s.readWord k b off).1 = some (s.tables.word k b off).data := by
  rcases s.readWord_cases k b off with ⟨-, e⟩ | ⟨-, e⟩ | ⟨h2, -⟩
  · rw [e]
  · rw [e]
  · omega

theorem State.readWord_double {s : State} {k : Kind} {b : Bank} {off : Nat}
    (h : 2 ≤ (s.tables.word k b off).errors) : (s.readWord k b off).1 = none := by
  rcases s.readWord_cases k b off with ⟨h0, -⟩ | ⟨h1, -⟩ | ⟨-, e⟩
  · omega
  · omega
  · rw [e]

/-- Words at different offsets of one bank lie at different addresses. -/
theorem ramAddress_ne {k : Kind} {b : Bank} {off off' : Nat} (h : off ≠ off') :
    ramAddress k b off ≠ ramAddress k b off' := by
  simp only [ramAddress]; omega

/-- Words without a double error, each read once, are answered as corrected. -/
theorem State.readWords_corrected {k : Kind} {b : Bank} {offs : List Nat} {s : State} (hd : offs.Nodup)
    (h : ∀ off ∈ offs, (s.tables.word k b off).errors < 2) :
    (s.readWords k b offs).1 = .words (s.tables.corrected k b offs) := by
  induction offs generalizing s with
  | nil => rfl
  | cons off rest ih =>
    obtain ⟨hnot, hrest⟩ := List.nodup_cons.1 hd
    have hword : ∀ o ∈ rest, (s.readWord k b off).2.tables.word k b o = s.tables.word k b o := fun o ho =>
      s.readWord_word (ramAddress_ne fun e => hnot (e ▸ ho))
    rw [State.readWords_cons, State.readWord_corrected (h off (List.mem_cons_self ..)),
      ih hrest fun o ho => by rw [hword o ho]; exact h o (List.mem_cons_of_mem _ ho)]
    have hsame : (s.readWord k b off).2.tables.corrected k b rest = s.tables.corrected k b rest :=
      List.map_congr_left fun o ho => by rw [hword o ho]
    simp only [hsame]
    rfl

/-- A double error ends a reading (R157). -/
theorem State.readWords_double {k : Kind} {b : Bank} {offs : List Nat} {s : State} (hd : offs.Nodup)
    (h : ∃ off ∈ offs, 2 ≤ (s.tables.word k b off).errors) : ∃ e, (s.readWords k b offs).1 = .doubleError e := by
  induction offs generalizing s with
  | nil => obtain ⟨off, hoff, -⟩ := h; cases hoff
  | cons off rest ih =>
    obtain ⟨hnot, hrest⟩ := List.nodup_cons.1 hd
    rw [State.readWords_cons]
    rcases Nat.lt_or_ge (s.tables.word k b off).errors 2 with hlt | hge
    · obtain ⟨o, ho, herr⟩ := h
      rcases List.mem_cons.1 ho with rfl | ho
      · omega
      have hword : (s.readWord k b off).2.tables.word k b o = s.tables.word k b o :=
        s.readWord_word (ramAddress_ne fun e => hnot (e ▸ ho))
      obtain ⟨e, he⟩ := ih hrest ⟨o, ho, by rwa [hword]⟩
      exact ⟨e, by rw [State.readWord_corrected hlt, he]⟩
    · exact ⟨off, by rw [State.readWord_double hge]⟩

theorem State.latch_fst (s : State) (k : Kind) (offs : List Nat) :
    (s.latch k offs).1 =
      if s.tables.usable k then
        match (s.readWords k (s.tables.kind k).live offs).1 with
        | .words ws => some ws
        | .doubleError _ => none
      else none := by
  unfold State.latch
  split
  · cases hr : s.readWords k (s.tables.kind k).live offs with
    | mk r s1 => cases r <;> rfl
  · rfl

/-- A latch of a usable kind without a double error takes the corrected words (R160). -/
theorem State.latch_corrected {s : State} {k : Kind} {offs : List Nat} (hu : s.tables.usable k = true) (hd : offs.Nodup)
    (h : ∀ off ∈ offs, (s.tables.word k (s.tables.kind k).live off).errors < 2) :
    (s.latch k offs).1 = some (s.tables.corrected k (s.tables.kind k).live offs) := by
  rw [State.latch_fst, if_pos hu, State.readWords_corrected hd h]

/-- A latch takes the fallback when the kind is not usable or a word holds a double error (R160, R172). -/
theorem State.latch_fallback {s : State} {k : Kind} {offs : List Nat} (hd : offs.Nodup)
    (h : s.tables.usable k = false ∨ ∃ off ∈ offs, 2 ≤ (s.tables.word k (s.tables.kind k).live off).errors) :
    (s.latch k offs).1 = none := by
  rw [State.latch_fst]
  rcases h with hu | hdouble
  · simp [hu]
  · obtain ⟨e, he⟩ := State.readWords_double hd hdouble
    rw [he]
    exact ite_self _

/-- The corrected word of an offset that was read. -/
theorem wordAt_corrected (ts : TableStore) (k : Kind) (b : Bank) {offs : List Nat} {off : Nat} (h : off ∈ offs) :
    wordAt (ts.corrected k b offs) off = (ts.word k b off).data := by
  induction offs with
  | nil => cases h
  | cons o rest ih =>
    simp only [TableStore.corrected, List.map_cons, wordAt] at *
    split
    next heq => rw [heq]
    next hne => exact ih ((List.mem_cons.1 h).resolve_left fun e => hne e.symm)

/-! ### Reports of a reading -/

/-- Of a descriptor the fault managers hold the same, and the log has at most grown. -/
structure FaultManager.SameFor (d : Descriptor) (fm fm' : FaultManager) : Prop where
  enables : fm'.enables = fm.enables
  flag : inSet fm'.flags d = inSet fm.flags d
  condition : inSet fm'.conditions d = inSet fm.conditions d
  pulse : fm'.pulses[d.index.val]'d.index.isLt = fm.pulses[d.index.val]'d.index.isLt
  log : fm.log <+: fm'.log

namespace FaultManager.SameFor
variable {d e : Descriptor} {fm fm' fm'' : FaultManager}

theorem refl (d : Descriptor) (fm : FaultManager) : FaultManager.SameFor d fm fm :=
  ⟨rfl, rfl, rfl, rfl, List.prefix_rfl⟩

theorem trans (h : FaultManager.SameFor d fm fm') (h' : FaultManager.SameFor d fm' fm'') :
    FaultManager.SameFor d fm fm'' :=
  ⟨h'.enables.trans h.enables, h'.flag.trans h.flag, h'.condition.trans h.condition, h'.pulse.trans h.pulse,
    h.log.trans h'.log⟩

theorem active (h : FaultManager.SameFor d fm fm') : fm'.active d = fm.active d := by
  simp only [FaultManager.active, h.condition, h.pulse]

end FaultManager.SameFor

theorem FaultManager.append_log_prefix (fm : FaultManager) (t : Time) (d : Descriptor) (w : List Word) :
    fm.log <+: (fm.append t d w).log := by
  unfold FaultManager.append
  split
  · exact List.prefix_append ..
  · exact List.prefix_rfl

theorem FaultManager.occur_log_prefix (fm : FaultManager) (t : Time) (d : Descriptor) (w : List Word) :
    fm.log <+: (fm.occur t d w).log := by
  unfold FaultManager.occur
  split
  · exact ({ fm with flags := withD fm.flags d } : FaultManager).append_log_prefix t d w
  · exact List.prefix_rfl

section
variable {d e : Descriptor} (h : d ≠ e) (fm : FaultManager)
include h

theorem FaultManager.occur_sameFor (t : Time) (w : List Word) : FaultManager.SameFor d fm (fm.occur t e w) :=
  ⟨by simp, by simp [FaultManager.occur_inSet_flags, h], by simp, by simp, fm.occur_log_prefix t e w⟩

theorem FaultManager.becameActive_sameFor (t : Time) (w : List Word) :
    FaultManager.SameFor d fm (fm.becameActive t e w) := by
  unfold FaultManager.becameActive
  split
  · exact .refl d fm
  · refine .trans ?_ (FaultManager.occur_sameFor h _ t w)
    exact ⟨rfl, rfl, by simp [h], rfl, List.prefix_rfl⟩

theorem FaultManager.becameInactive_sameFor : FaultManager.SameFor d fm (fm.becameInactive e) :=
  ⟨rfl, rfl, by simp [h], rfl, List.prefix_rfl⟩

theorem FaultManager.happened_sameFor (clock : Nat) (w : List Word) :
    FaultManager.SameFor d fm (fm.happened clock e w) := by
  have hindex : e.index.val ≠ d.index.val := fun hi => h (index_inj hi).symm
  unfold FaultManager.happened
  refine .trans ?_ (FaultManager.occur_sameFor h _ _ w)
  exact ⟨rfl, rfl, rfl, Vector.getElem_set_ne e.index.isLt d.index.isLt hindex, List.prefix_rfl⟩

theorem State.level_sameFor (s : State) (on : Bool) (w : List Word) :
    FaultManager.SameFor d s.faults (s.level e on w).faults := by
  cases on
  · exact FaultManager.becameInactive_sameFor h _
  · exact FaultManager.becameActive_sameFor h _ _ _

end

/-- A latch reports nothing but TABLE_SEC and TABLE_DED (R157, R161). -/
theorem State.latch_sameFor {d : Descriptor} (hsec : d ≠ .core .tableSec) (hded : d ≠ .core .tableDed) (s : State)
    (k : Kind) (offs : List Nat) : FaultManager.SameFor d s.faults (s.latch k offs).2.faults := by
  refine State.latch_induction (p := fun a => FaultManager.SameFor d s.faults a.faults) (.refl d _) ?_
  refine fun a off _ h => h.trans ?_
  rcases a.readWord_cases k (s.tables.kind k).live off with ⟨-, e⟩ | ⟨-, e⟩ | ⟨-, e⟩ <;> rw [e]
  · exact .refl d _
  · exact FaultManager.happened_sameFor hsec _ _ _
  · dsimp only
    split
    · rw [State.corruptKind_faults]
      split
      · exact FaultManager.becameActive_sameFor hded _ _ _
      · exact .refl d _
    · exact .refl d _

end Sys2Proof.Machine
end

section
/-! SUPPORT. SET_PAN (R58, R207): a latch looks at no block of a side, so that the executor's taking of the command and
the latch of VIEW change places. -/

namespace Sys2Proof.Machine

/-- The state with other blocks of the sides and another state of the executor. -/
def State.withBlocks (s : State) (left right : SideUnit) (executor : Executor) (served : Side) : State :=
  { s with left := left, right := right, executor := executor, lastServed := served }

section
variable (s : State) (left right : SideUnit) (executor : Executor) (served : Side)

theorem State.corruptKind_withBlocks (k : Kind) (off : Nat) :
    (s.withBlocks left right executor served).corruptKind k off =
      (s.corruptKind k off).withBlocks left right executor served := by
  have htables : (s.withBlocks left right executor served).tables = s.tables := rfl
  by_cases hcorrupt : (s.tables.kind k).corrupt = true
  · simp [State.corruptKind, htables, hcorrupt]
  · by_cases hfirst : s.tables.corruptions = [] <;>
      simp only [State.corruptKind, htables, hcorrupt, hfirst, if_true, if_false, Bool.false_eq_true] <;> rfl

theorem State.readWord_withBlocks (k : Kind) (b : Bank) (off : Nat) :
    (s.withBlocks left right executor served).readWord k b off =
      ((s.readWord k b off).1, (s.readWord k b off).2.withBlocks left right executor served) := by
  have htables : (s.withBlocks left right executor served).tables = s.tables := rfl
  simp only [State.readWord, htables, State.corruptKind_withBlocks]
  split
  · rfl
  · split
    · rfl
    · split <;> rfl

theorem State.readWords_withBlocks (k : Kind) (b : Bank) (offs : List Nat) :
    (s.withBlocks left right executor served).readWords k b offs =
      ((s.readWords k b offs).1, (s.readWords k b offs).2.withBlocks left right executor served) := by
  induction offs generalizing s with
  | nil => rfl
  | cons off rest ih =>
    simp only [State.readWords, State.readWord_withBlocks]
    cases s.readWord k b off with
    | mk d s1 =>
      cases d with
      | none => rfl
      | some d =>
        simp only [ih]
        cases s1.readWords k b rest with
        | mk r s2 => cases r <;> rfl

theorem State.latch_withBlocks (k : Kind) (offs : List Nat) :
    (s.withBlocks left right executor served).latch k offs =
      ((s.latch k offs).1, (s.latch k offs).2.withBlocks left right executor served) := by
  have htables : (s.withBlocks left right executor served).tables = s.tables := rfl
  simp only [State.latch, htables, State.readWords_withBlocks]
  split
  · cases s.readWords k (s.tables.kind k).live offs with
    | mk r s1 => cases r <;> rfl
  · rfl

end

/-- The executor's taking of a command as new blocks. -/
theorem State.takeCommand_eq (s : State) (link : Side) :
    s.takeCommand link =
      s.withBlocks (s.takeCommand link).left (s.takeCommand link).right .executing link := by
  cases link <;> rfl

theorem State.takeCommand_congr {a s : State} {link : Side} (h : ∀ side, s.unit side = a.unit side) :
    (s.takeCommand link).left = (a.takeCommand link).left ∧ (s.takeCommand link).right = (a.takeCommand link).right := by
  have hl : s.left = a.left := h .left
  have hr : s.right = a.right := h .right
  cases link <;> simp [State.takeCommand, State.modChannel, State.modUnit, hl, hr]

/-- A latch of a command's body, made before the executor takes the command. -/
theorem State.latch_takeCommand (s : State) (link : Side) (k : Kind) (offs : List Nat) :
    (s.takeCommand link).latch k offs = ((s.latch k offs).1, (s.latch k offs).2.takeCommand link) := by
  obtain ⟨hl, hr⟩ := State.takeCommand_congr (link := link) fun side => s.latch_unit side k offs
  conv_lhs => rw [State.takeCommand_eq, State.latch_withBlocks]
  rw [(s.latch k offs).2.takeCommand_eq link, hl, hr]

theorem State.modView_takeCommand (s : State) (link : Side) (v : View) (f : ViewUnit → ViewUnit) :
    (s.takeCommand link).modView v f = (s.modView v f).takeCommand link := by
  cases link <;> cases v <;> rfl

/-! ### The operands and the applied origin -/

theorem viewOf_index (v : View) : viewOf (BitVec.ofNat 8 v.index) = some v := by cases v <;> rfl

theorem numberOf_pair (lo hi : Byte) : numberOf [lo, hi] = (hi ++ lo).toNat := by
  rw [BitVec.toNat_append, ← Nat.shiftLeft_add_eq_or_of_lt lo.isLt, Nat.shiftLeft_eq]
  simp only [numberOf]
  omega

/-- The pan fields that are latched, or the fallback's (R58). -/
def panFieldsRead (read : Option (List (Nat × Word))) (v : View) : PanFields :=
  (read.map fun ws => panFieldsOf ws v).getD panFieldsFallback

theorem acceptedPan_takeCommand (v : View) (x y : Nat) (s : State) (link : Side) :
    acceptedPan v x y (s.takeCommand link) =
      (let o := panOrigin v (panFieldsRead (s.latch .view (panWords v)).1 v) x y
      (⟨if o = (x, y) then .ok else .clamped, bytes2 o.1 ++ bytes2 o.2⟩,
        ((s.latch .view (panWords v)).2.modView v fun u => { u with originX := o.1, originY := o.2 }).takeCommand
          link)) := by
  simp only [acceptedPan, State.latch_takeCommand, State.modView_takeCommand]
  rfl

/-- R207: a SET_PAN that is taken latches, moves the origin to the applied one and answers it. -/
theorem exec_setPan {s : State} {t : Time} {link : Side} {tag x0 x1 y0 y1 : Byte} {v : View} {ax ay : Nat}
    (h : s.ready link ⟨tag, 0x20, [BitVec.ofNat 8 v.index, x0, x1, y0, y1]⟩)
    (horigin : panOrigin v (panFieldsRead ((s.advance t).latch .view (panWords v)).1 v) (x1 ++ x0).toNat
      (y1 ++ y0).toNat = (ax, ay)) :
    exec (.setPan t link tag [BitVec.ofNat 8 v.index, x0, x1, y0, y1]) s =
      .next ((((s.advance t).latch .view (panWords v)).2.modView v fun u =>
        { u with originX := ax, originY := ay }).answered link
          ⟨tag, 0x20, [BitVec.ofNat 8 v.index, x0, x1, y0, y1]⟩
          (if ax = (x1 ++ x0).toNat ∧ ay = (y1 ++ y0).toNat then .ok else .clamped) (bytes2 ax ++ bytes2 ay)) := by
  have hbody : ∀ a : State, setPanBody [BitVec.ofNat 8 v.index, x0, x1, y0, y1] a =
      acceptedPan v (x1 ++ x0).toNat (y1 ++ y0).toNat a := fun a => by
    simp only [setPanBody, viewOf_index, numberOf_pair]
  have hcommand := command_ready (t := t) h (setPanBody [BitVec.ofNat 8 v.index, x0, x1, y0, y1])
  simp only [hbody, acceptedPan_takeCommand, respond_take, horigin, Prod.mk.injEq] at hcommand
  exact hcommand

/-- Settles O14: the applied origin is the clamped one, field by field. -/
theorem setPanAppliesTheClampedOrigin : Obligations.SetPanAppliesTheClampedOrigin := by
  unfold Obligations.SetPanAppliesTheClampedOrigin
  intro t link tag x0 x1 y0 y1 v s c x y latched field scale ax ay hready
  have horigin : panOrigin v (panFieldsRead latched.1 v) x y = (ax, ay) := by
    have hheight : v.heightFactor = if v.isMain then 16 else 9 := rfl
    simp only [panOrigin, hheight, ax, ay, scale, field, panFieldsRead]
    cases latched.1 <;> rfl
  exact exec_setPan hready horigin

end Sys2Proof.Machine
end

section
/-! SUPPORT. The work of an output frame start: what it does to one view, and the chain of its parts (R53, R59 to R68). -/

namespace Sys2Proof.Machine

/-! ### One view -/

/-- The effective reaction that a composer computes for a view (R59, R134). -/
def State.reactionAtOutput (s : State) (v : View) : Reaction :=
  effectiveReaction s.faults (s.unit v.side).composer.policy v

/-- The new state of a view at an output frame start, and the cause of VIEW_LOST (R62 to R64). -/
def State.outcomeAtOutput (s : State) (v : View) : ViewState × Option Word :=
  viewOutcome s.mode ((s.view v).turn (s.reactionAtOutput v)) (s.reactionAtOutput v)
    (holdBeyond (s.unit v.side).composer.completion s.now (s.view v).limits) ((s.view v).ring.has .ready)

/-- A view with its new reaction, ring and state, before its latency and its region. -/
def State.turnedAtOutput (s : State) (v : View) : ViewUnit :=
  ((s.view v).turn (s.reactionAtOutput v)).become (s.outcomeAtOutput v)

/-- A view as an output frame start leaves it. -/
def State.viewAtOutput (s : State) (v : View) : ViewUnit :=
  { s.turnedAtOutput v with
    latency := latencyOf (s.turnedAtOutput v) s.now
    region := some (regionAtStart (s.turnedAtOutput v)) }

theorem State.modView_modView (s : State) (v : View) (f g : ViewUnit → ViewUnit) :
    (s.modView v f).modView v g = s.modView v (g ∘ f) := by cases v <;> rfl

@[simp] theorem State.reportLost_unit (s : State) (v : View) (cause : Option Word) (side : Side) :
    (s.reportLost v cause).unit side = s.unit side := by
  cases cause
  · rfl
  · exact State.raise_unit ..

@[simp] theorem State.reportLost_view (s : State) (v w : View) (cause : Option Word) :
    (s.reportLost v cause).view w = s.view w := by simp [State.view]

@[simp] theorem State.reportLost_clock (s : State) (v : View) (cause : Option Word) :
    (s.reportLost v cause).clock = s.clock := by cases cause <;> rfl

@[simp] theorem State.reportLost_mode (s : State) (v : View) (cause : Option Word) :
    (s.reportLost v cause).mode = s.mode := by cases cause <;> rfl

/-- Two changes of a view that agree where they are made. -/
theorem State.modView_unit_congr {a s : State} {v : View} {f g : ViewUnit → ViewUnit} (side : Side)
    (h : ∀ x, s.unit x = a.unit x) (hf : f (a.view v) = g (a.view v)) :
    (s.modView v f).unit side = (a.modView v g).unit side := by
  by_cases hs : side = v.side
  · subst hs
    rw [State.modView, State.modView, State.modUnit_unit_same, State.modUnit_unit_same, h]
    unfold State.view at hf
    cases hm : v.isMain <;> simp only [hm, if_true, if_false, Bool.false_eq_true] at hf ⊢ <;> rw [hf]
  · rw [State.modView, State.modView, State.modUnit_unit_of_ne _ hs, State.modUnit_unit_of_ne _ hs, h]

/-- Whether a view is later than its limit (R68). -/
def ViewUnit.late (u : ViewUnit) : Bool :=
  match u.latency with
  | some l => decide (u.limits.latencyLimit < l.toNat)
  | none => false

/-- The composer's work on a view, with the view's steps named: it turns, is reported lost, is measured, and is read. -/
theorem State.outputView_eq (s : State) (v : View) :
    s.outputView v =
      ((((s.modView v fun _ => s.turnedAtOutput v).reportLost v (s.outcomeAtOutput v).2).modView v
        fun u => { u with latency := (s.viewAtOutput v).latency }).level (.view v .latency) (s.viewAtOutput v).late
          [reported (s.viewAtOutput v).latency]).modView v fun u => { u with region := some (regionAtStart u) } := by
  have hturned : ((s.modView v fun _ => s.turnedAtOutput v).reportLost v (s.outcomeAtOutput v).2).view v =
      s.turnedAtOutput v := by simp
  have hnow : ((s.modView v fun _ => s.turnedAtOutput v).reportLost v (s.outcomeAtOutput v).2).now = s.now := by
    simp [State.now]
  have houtput : s.outputView v =
      (((s.modView v fun _ => s.turnedAtOutput v).reportLost v (s.outcomeAtOutput v).2).measureLatency v).modView v
        fun u => { u with region := some (regionAtStart u) } := rfl
  rw [houtput, State.measureLatency, hturned, hnow]
  rfl

/-- The composer's work on a view changes no block but that view. -/
theorem State.outputView_unit (s : State) (v : View) (side : Side) :
    (s.outputView v).unit side = (s.modView v fun _ => s.viewAtOutput v).unit side := by
  rw [State.outputView_eq, State.modView_unit_congr side (fun x => State.level_unit _ _ _ _ x) (g := fun u =>
    { u with region := some (regionAtStart u) }) rfl, State.modView_modView,
    State.modView_unit_congr side (fun x => State.reportLost_unit _ _ _ x) rfl, State.modView_modView]
  rfl

theorem State.outputView_composer (s : State) (v : View) (side : Side) :
    ((s.outputView v).unit side).composer = (s.unit side).composer := by
  rw [State.outputView_unit]
  refine s.modUnit_keeps v.side side (·.composer) ?_
  cases v.isMain <;> rfl

theorem State.outputView_view (s : State) (v : View) : (s.outputView v).view v = s.viewAtOutput v := by
  rw [State.view, State.outputView_unit, ← State.view, State.modView_view]

theorem State.outputView_view_of_ne (s : State) {v w : View} (h : w ≠ v) : (s.outputView v).view w = s.view w := by
  rw [State.view, State.outputView_unit, ← State.view, State.modView_view_of_ne _ h]

/-! ### Its reports -/

theorem State.level_faults_congr {a s : State} (hf : s.faults = a.faults) (hc : s.clock = a.clock) (d : Descriptor)
    (on : Bool) (w : List Word) : (s.level d on w).faults = (a.level d on w).faults := by
  cases on <;> simp [State.level, State.now, hf, hc]

theorem State.reportLost_faults_congr {a s : State} (hf : s.faults = a.faults) (hc : s.clock = a.clock) (v : View)
    (cause : Option Word) : (s.reportLost v cause).faults = (a.reportLost v cause).faults := by
  cases cause <;> simp [State.reportLost, hf, hc]

/-- The composer's work on a view reports VIEW_LOST, when the view is lost, and the level of LATENCY. -/
theorem State.outputView_faults (s : State) (v : View) :
    (s.outputView v).faults =
      ((s.reportLost v (s.outcomeAtOutput v).2).level (.view v .latency) (s.viewAtOutput v).late
        [reported (s.viewAtOutput v).latency]).faults := by
  rw [State.outputView_eq, State.modView_faults]
  refine State.level_faults_congr ?_ (by simp) ..
  rw [State.modView_faults]
  exact State.reportLost_faults_congr (by simp) (by simp) ..

theorem State.reportLost_sameFor {d : Descriptor} {v : View} (h : d ≠ .view v .viewLost) (s : State)
    (cause : Option Word) : FaultManager.SameFor d s.faults (s.reportLost v cause).faults := by
  cases cause
  · exact .refl d _
  · exact FaultManager.happened_sameFor h _ _ _

theorem State.outputView_sameFor {d : Descriptor} {v : View} (hlost : d ≠ .view v .viewLost)
    (hlatency : d ≠ .view v .latency) (s : State) : FaultManager.SameFor d s.faults (s.outputView v).faults := by
  rw [State.outputView_faults]
  exact (s.reportLost_sameFor hlost _).trans (State.level_sameFor hlatency _ _ _)

theorem State.outputView_log_prefix (s : State) (v : View) : s.faults.log <+: (s.outputView v).faults.log := by
  exact (State.outputView_sameFor (d := .core .resetSeen) (by simp) (by simp) s).log

/-! ### What is left alone -/

theorem OnlySide.raise (side : Side) (s : State) (d : Descriptor) (w : List Word) : OnlySide side s (s.raise d w) :=
  .of_reports side s

theorem OnlySide.level (side : Side) (s : State) (d : Descriptor) (on : Bool) (w : List Word) :
    OnlySide side s (s.level d on w) := by
  cases on
  · exact .of_reports side s
  · exact .of_reports side s

theorem State.outputView_onlySide (s : State) (v : View) : OnlySide v.side s (s.outputView v) := by
  have report : ∀ (a : State) (cause : Option Word), OnlySide v.side a (a.reportLost v cause) := fun a cause => by
    cases cause
    · exact .refl _ a
    · exact .raise _ a _ _
  unfold State.outputView State.measureLatency
  exact (((OnlySide.modUnit v.side s _).trans (report _ _)).trans ((OnlySide.modUnit v.side _ _).trans
    (.level _ _ _ _ _))).trans (.modUnit v.side _ _)

/-! ### The latches of an output frame start (R59) -/

/-- The state after the three latches of a composer. -/
def State.afterLatches (s : State) (side : Side) : State :=
  (((s.latchLimits side).latchPolicy side).latchOutputTiming side).2

/-- The limits that a composer latches for a view (R59). -/
def State.latchedLimits (s : State) (v : View) : ViewLimits :=
  limitsFor (s.latch .view (composerViewWords v.side)).1 v

theorem State.latchLimits_view (s : State) (v : View) :
    (s.latchLimits v.side).view v = { s.view v with limits := s.latchedLimits v } := by
  cases v <;> simp [State.latchLimits, State.view, State.latchedLimits, View.isMain, View.side, Side.mainView,
    Side.wideView]

theorem State.latchPolicy_view (s : State) (side : Side) (v : View) : (s.latchPolicy side).view v = s.view v := by
  cases v <;> cases side <;>
    simp [State.latchPolicy, State.view, State.modComposer_eq, State.modUnit_unit_of_ne, View.side, View.isMain]

theorem State.latchOutputTiming_view (s : State) (side : Side) (v : View) :
    (s.latchOutputTiming side).2.view v = s.view v := by simp [State.latchOutputTiming, State.view]

theorem State.afterLatches_view (s : State) (v : View) :
    (s.afterLatches v.side).view v = { s.view v with limits := s.latchedLimits v } := by
  rw [State.afterLatches, State.latchOutputTiming_view, State.latchPolicy_view, State.latchLimits_view]

theorem State.latchLimits_onlySide (s : State) (side : Side) : OnlySide side s (s.latchLimits side) := by
  unfold State.latchLimits
  exact (s.latch_onlySide side .view _).trans (.modUnit side _ _)

theorem State.latchPolicy_onlySide (s : State) (side : Side) : OnlySide side s (s.latchPolicy side) := by
  unfold State.latchPolicy
  exact (s.latch_onlySide side .policy _).trans (.modUnit side _ _)

theorem State.afterLatches_eq (s : State) (side : Side) :
    s.afterLatches side = (((s.latchLimits side).latchPolicy side).latch .timing (composerTimingWords side)).2 := by
  unfold State.afterLatches State.latchOutputTiming
  dsimp only

theorem State.afterLatches_onlySide (s : State) (side : Side) : OnlySide side s (s.afterLatches side) := by
  rw [State.afterLatches_eq]
  exact ((s.latchLimits_onlySide side).trans (State.latchPolicy_onlySide _ side)).trans
    (State.latch_onlySide side _ .timing _)

theorem State.latchLimits_faults (s : State) (side : Side) :
    (s.latchLimits side).faults = (s.latch .view (composerViewWords side)).2.faults := State.modUnit_faults ..

theorem State.latchPolicy_faults (s : State) (side : Side) :
    (s.latchPolicy side).faults = (s.latch .policy ((List.range 16).map (2 + ·))).2.faults :=
  State.modComposer_faults ..

theorem State.afterLatches_sameFor {d : Descriptor} (hsec : d ≠ .core .tableSec) (hded : d ≠ .core .tableDed) (s : State)
    (side : Side) : FaultManager.SameFor d s.faults (s.afterLatches side).faults := by
  have hlimits := State.latch_sameFor hsec hded s .view (composerViewWords side)
  have hpolicy := State.latch_sameFor hsec hded (s.latchLimits side) .policy ((List.range 16).map (2 + ·))
  rw [← State.latchLimits_faults] at hlimits
  rw [← State.latchPolicy_faults] at hpolicy
  rw [State.afterLatches_eq]
  exact (hlimits.trans hpolicy).trans (State.latch_sameFor hsec hded _ .timing _)

/-- The blocks of a side after the latches: new limits and a new policy. -/
theorem State.afterLatches_unit (s : State) (side : Side) :
    ∃ main wide policy, (s.afterLatches side).unit side =
      { s.unit side with main := main, wide := wide, composer := { (s.unit side).composer with policy := policy } } := by
  refine ⟨?main, ?wide, ?policy, ?blocks⟩
  case blocks =>
    simp only [State.afterLatches, State.latchOutputTiming, State.latch_unit, State.latchPolicy, State.latchLimits,
      State.modComposer_unit_same, State.modUnit_unit_same]
    rfl

/-! ### After the views -/

/-- The composer's timing at an output frame start, for either timing state (R70, R72). -/
theorem Composer.outputStart_eq (c : Composer) (latched : OutputTiming) (clock : Nat) :
    c.outputStart latched clock =
      { c with
        timing := c.timingAfter latched
        latched := latched
        pendingEnd := none
        prevOut := some clock
        period := (c.prevOut.map fun p => some (measured (BitVec.ofNat 32 clock - BitVec.ofNat 32 p))).getD c.period
        nextOut := clock + (if c.timingAfter latched = .tracking then 20000 else latched.nominal) } := by
  by_cases h : c.timingAfter latched = .tracking
  · simp only [Composer.outputStart, h, if_true]
    rfl
  · simp only [Composer.outputStart, h, if_false]
    rfl

theorem Composer.outputStart_frameNumber (c : Composer) (latched : OutputTiming) (clock : Nat) :
    (c.outputStart latched clock).frameNumber = c.frameNumber := by rw [Composer.outputStart_eq]

/-- The output timing that a composer latches (R69). -/
def State.latchedTiming (s : State) (side : Side) : OutputTiming :=
  (((s.latchLimits side).latchPolicy side).latchOutputTiming side).1

/-- The state after the work on the two views of a side. -/
def State.afterViews (s : State) (side : Side) : State :=
  ((s.afterLatches side).outputView side.mainView).outputView side.wideView

theorem State.takeOutputStart_eq (s : State) (side : Side) :
    s.takeOutputStart side =
      (((s.afterViews side).modComposer side fun c =>
        c.outputStart (s.latchedTiming side) (s.afterViews side).clock).backlightStart side).captureTrailer side := by
  unfold State.takeOutputStart State.afterViews State.latchedTiming State.afterLatches
  dsimp only

theorem Side.mainView_side (side : Side) : side.mainView.side = side := by cases side <;> rfl

theorem Side.wideView_side (side : Side) : side.wideView.side = side := by cases side <;> rfl

theorem State.afterViews_onlySide (s : State) (side : Side) : OnlySide side s (s.afterViews side) := by
  have hmain := (s.afterLatches side).outputView_onlySide side.mainView
  have hwide := ((s.afterLatches side).outputView side.mainView).outputView_onlySide side.wideView
  rw [Side.mainView_side] at hmain
  rw [Side.wideView_side] at hwide
  exact ((s.afterLatches_onlySide side).trans hmain).trans hwide

theorem State.outputView_unit_side (s : State) {v : View} {side : Side} (hv : v.side = side) :
    ∃ main wide, (s.outputView v).unit side = { s.unit side with main := main, wide := wide } := by
  rw [State.outputView_unit, State.modView, hv, State.modUnit_unit_same]
  cases v.isMain
  · exact ⟨_, _, rfl⟩
  · exact ⟨_, _, rfl⟩

theorem State.afterViews_unit (s : State) (side : Side) :
    ∃ main wide policy, (s.afterViews side).unit side =
      { s.unit side with main := main, wide := wide, composer := { (s.unit side).composer with policy := policy } } := by
  obtain ⟨m0, w0, policy, h0⟩ := s.afterLatches_unit side
  obtain ⟨m1, w1, h1⟩ := (s.afterLatches side).outputView_unit_side (Side.mainView_side side)
  obtain ⟨m2, w2, h2⟩ := ((s.afterLatches side).outputView side.mainView).outputView_unit_side (Side.wideView_side side)
  exact ⟨m2, w2, policy, by rw [State.afterViews, h2, h1, h0]⟩

theorem State.captureTrailer_unit (s : State) (side : Side) :
    ∃ trailer, (s.captureTrailer side).unit side =
      { s.unit side with
        channel := { (s.unit side).channel with responses := (s.unit side).channel.responses.drop 4 }
        composer := { (s.unit side).composer with
          trailer := trailer, frameNumber := (s.unit side).composer.frameNumber + 1 } } := by
  refine ⟨?trailer, ?blocks⟩
  case blocks =>
    simp only [State.captureTrailer, State.modComposer_unit_same, State.modChannel_unit_same, Config.responsesPerTrailer]
    rfl

theorem State.backlightStart_unit (s : State) (side : Side) :
    ∃ light, (s.backlightStart side).unit side = { s.unit side with light := light } := by
  refine ⟨?light, ?blocks⟩
  case blocks =>
    simp only [State.backlightStart, State.modLight_unit_same, State.latch_unit]
    rfl

/-- The blocks of a side after an output frame start. -/
theorem State.takeOutputStart_unit (s : State) (side : Side) :
    ∃ main wide light policy trailer, (s.takeOutputStart side).unit side =
      { s.unit side with
        main := main, wide := wide, light := light
        channel := { (s.unit side).channel with responses := (s.unit side).channel.responses.drop 4 }
        composer :=
          { ({ (s.unit side).composer with policy := policy } : Composer).outputStart (s.latchedTiming side) s.clock with
            trailer := trailer, frameNumber := (s.unit side).composer.frameNumber + 1 } } := by
  obtain ⟨main, wide, policy, hviews⟩ := s.afterViews_unit side
  have hclock : (s.afterViews side).clock = s.clock := (s.afterViews_onlySide side).clock
  rw [State.takeOutputStart_eq]
  generalize hstart : ((s.afterViews side).modComposer side fun c =>
    c.outputStart (s.latchedTiming side) (s.afterViews side).clock) = a
  obtain ⟨light, hlight⟩ := a.backlightStart_unit side
  obtain ⟨trailer, htrailer⟩ := (a.backlightStart side).captureTrailer_unit side
  refine ⟨main, wide, light, policy, trailer, ?_⟩
  rw [htrailer, hlight, ← hstart, State.modComposer_unit_same, hviews, hclock]
  simp only [Composer.outputStart_frameNumber]

theorem State.takeOutputStart_onlySide (s : State) (side : Side) : OnlySide side s (s.takeOutputStart side) := by
  rw [State.takeOutputStart_eq]
  unfold State.captureTrailer State.backlightStart
  exact ((((s.afterViews_onlySide side).trans (.modUnit side _ _)).trans ((State.latch_onlySide side _ .light _).trans
    (.modUnit side _ _))).trans (.modUnit side _ _)).trans (.modUnit side _ _)

/-! ### The output timing (R69, R70, R72, R73) -/

theorem State.latchedTiming_eq (s : State) (side : Side) :
    s.latchedTiming side =
      ((((s.latchLimits side).latchPolicy side).latch .timing (composerTimingWords side)).1.map fun ws =>
        outputTimingOf ws side).getD {} := by
  unfold State.latchedTiming State.latchOutputTiming
  dsimp only

/-- The latches of VIEW and POLICY leave TIMING alone. -/
theorem State.latchPolicy_timing (s : State) (side : Side) :
    ((s.latchLimits side).latchPolicy side).tables.usable .timing = s.tables.usable .timing ∧
      ((s.latchLimits side).latchPolicy side).tables.kind .timing = s.tables.kind .timing ∧
      ∀ b off, off < 12 → ((s.latchLimits side).latchPolicy side).tables.word .timing b off =
        s.tables.word .timing b off := by
  have hview : ∀ off ∈ composerViewWords side, off < Kind.view.size := by cases side <;> decide
  have hpolicy : ∀ off ∈ (List.range 16).map (2 + ·), off < Kind.policy.size := by decide
  have hlimits : (s.latchLimits side).tables = (s.latch .view (composerViewWords side)).2.tables :=
    State.modUnit_tables ..
  have htables : ((s.latchLimits side).latchPolicy side).tables =
      ((s.latchLimits side).latch .policy ((List.range 16).map (2 + ·))).2.tables := State.modComposer_tables ..
  obtain ⟨hkind1, hword1⟩ := s.latch_other_kind (j := .timing) (by decide) hview
  obtain ⟨hkind2, hword2⟩ := (s.latchLimits side).latch_other_kind (j := .timing) (by decide) hpolicy
  rw [hlimits] at hkind2 hword2
  rw [htables]
  refine ⟨?_, hkind2.trans hkind1, fun b off h => (hword2 b off h).trans (hword1 b off h)⟩
  rw [TableStore.usable, hkind2, hkind1, TableStore.usable]

theorem composerTimingWords_nodup (side : Side) : (composerTimingWords side).Nodup := by cases side <;> decide

theorem mem_composerTimingWords {side : Side} {off : Nat} :
    off ∈ composerTimingWords side ↔ ∃ i, i < 3 ∧ off = 3 + 3 * side.code + i := by
  simp only [composerTimingWords, List.mem_cons, List.not_mem_nil, or_false]
  constructor
  · rintro (h | h | h)
    · exact ⟨0, by omega⟩
    · exact ⟨1, by omega⟩
    · exact ⟨2, by omega⟩
  · rintro ⟨i, hi, rfl⟩
    omega

theorem timingWord_lt (side : Side) {i : Nat} (hi : i < 3) : 3 + 3 * side.code + i < 12 := by
  cases side <;> simp only [Side.code] <;> omega

section
variable {s : State} {side : Side}

/-- A TIMING that is not usable, or holds a double error, gives the fallback output timing (R69, R160). -/
theorem State.latchedTiming_fallback
    (h : s.tables.usable .timing = false ∨ ∃ i, i < 3 ∧
      2 ≤ (s.tables.word .timing (s.tables.kind .timing).live (3 + 3 * side.code + i)).errors) :
    s.latchedTiming side = {} := by
  obtain ⟨husable, hkind, hword⟩ := s.latchPolicy_timing side
  have hlatch := State.latch_fallback (s := (s.latchLimits side).latchPolicy side) (composerTimingWords_nodup side) (by
    rw [husable]
    refine h.imp_right ?_
    rintro ⟨i, hi, herr⟩
    exact ⟨_, mem_composerTimingWords.2 ⟨i, hi, rfl⟩, by rwa [hkind, hword _ _ (timingWord_lt side hi)]⟩)
  rw [State.latchedTiming_eq, hlatch]
  rfl

/-- A usable TIMING gives its words, as corrected (R69). -/
theorem State.latchedTiming_corrected (hu : s.tables.usable .timing = true)
    (h : ∀ i, i < 3 → (s.tables.word .timing (s.tables.kind .timing).live (3 + 3 * side.code + i)).errors < 2) :
    let word := fun i => s.tables.word .timing (s.tables.kind .timing).live (3 + 3 * side.code + i)
    s.latchedTiming side = ⟨(word 0).data.getLsbD 0, bits (word 1).data 0 15, bits (word 2).data 0 14⟩ := by
  intro word
  obtain ⟨husable, hkind, hword⟩ := s.latchPolicy_timing side
  have hlatch := State.latch_corrected (s := (s.latchLimits side).latchPolicy side) (husable.trans hu)
    (composerTimingWords_nodup side) (by
      intro off hoff
      obtain ⟨i, hi, rfl⟩ := mem_composerTimingWords.1 hoff
      rw [hkind, hword _ _ (timingWord_lt side hi)]
      exact h i hi)
  have hread : ∀ i, i < 3 → wordAt (((s.latchLimits side).latchPolicy side).tables.corrected .timing
      (((s.latchLimits side).latchPolicy side).tables.kind .timing).live (composerTimingWords side))
      (3 + 3 * side.code + i) = (word i).data := fun i hi => by
    rw [wordAt_corrected _ _ _ (mem_composerTimingWords.2 ⟨i, hi, rfl⟩), hkind, hword _ _ (timingWord_lt side hi)]
  have h0 := hread 0 (by omega)
  have h1 := hread 1 (by omega)
  have h2 := hread 2 (by omega)
  rw [Nat.add_zero] at h0
  rw [Nat.add_right_comm] at h1 h2
  rw [State.latchedTiming_eq, hlatch]
  simp only [Option.map_some, Option.getD_some, outputTimingOf, h0, h1, h2]
  rfl

/-- A start in TRACKING follows a frame end in the displays' window (R72). -/
theorem Composer.fallbackDue_eq_false (c : Composer) :
    c.fallbackDue = false ↔ ∃ p, c.prevOut = some p ∧ ∃ e, c.pendingEnd = some e ∧
      max (e + c.latched.lead) (p + 15000) ≤ p + 20000 := by
  unfold Composer.fallbackDue trackingStart
  cases c.prevOut with
  | none => simp
  | some p =>
    cases c.pendingEnd with
    | none => simp
    | some e => simp [Config.outputPeriodMin, Config.outputPeriodMax]

theorem Composer.timingAfter_tracking (c : Composer) (latched : OutputTiming) :
    c.timingAfter latched = .tracking ↔ c.timing = .tracking ∧ latched.track = true ∧
      ∃ p, c.prevOut = some p ∧ ∃ e, c.pendingEnd = some e ∧ max (e + c.latched.lead) (p + 15000) ≤ p + 20000 := by
  rw [← Composer.fallbackDue_eq_false]
  unfold Composer.timingAfter
  split
  next h => exact ⟨fun _ => ⟨h.1, h.2.2, h.2.1⟩, fun _ => rfl⟩
  next h => exact ⟨(fun e => by cases e), fun hs => absurd ⟨hs.1, hs.2.2, hs.2.1⟩ h⟩

/-! ### The step -/

theorem exec_outputFrameStart_due (t : Time) (h : (s.unit side).composer.nextOut ≤ (s.advance t).clock) :
    exec (.outputFrameStart t side) s = .next ((s.advance t).takeOutputStart side) := by
  have hexec : exec (.outputFrameStart t side) s = execOutputFrameStart t side s := rfl
  rw [hexec, execOutputFrameStart, State.advance_unit, if_pos h]

theorem exec_outputFrameStart_early (t : Time) (h : (s.advance t).clock < (s.unit side).composer.nextOut) :
    exec (.outputFrameStart t side) s = .next (s.advance t) := by
  have hexec : exec (.outputFrameStart t side) s = execOutputFrameStart t side s := rfl
  rw [hexec, execOutputFrameStart, State.advance_unit, if_neg (Nat.not_le.2 h)]

end

/-- Settles O48: the blocks of the side come from `State.takeOutputStart_unit`, the timing from the latch of TIMING. -/
theorem outputFrameStartSetsTheTiming : Obligations.OutputFrameStartSetsTheTiming := by
  unfold Obligations.OutputFrameStartSetsTheTiming
  intro t side s s0 c word
  refine ⟨exec_outputFrameStart_early t, fun hdue => ⟨s0.takeOutputStart side, exec_outputFrameStart_due t hdue, ?_⟩⟩
  have honly := s0.takeOutputStart_onlySide side
  have hclock : (s0.takeOutputStart side).clock = s0.clock := honly.clock
  have hnow : BitVec.ofNat 32 s0.clock = t := s.advance_now t
  have hrest := honly.rest
  have hother := honly.other
  rw [State.advance_unit] at hother
  obtain ⟨main, wide, light, policy, trailer, hunit⟩ := s0.takeOutputStart_unit side
  have hside : s0.unit side = s.unit side := s.advance_unit t side
  rw [hside] at hunit
  intro c'
  have hc' : c' =
      { ({ c with policy := policy } : Composer).outputStart (s0.latchedTiming side) s0.clock with
        trailer := trailer, frameNumber := c.frameNumber + 1 } := congrArg SideUnit.composer hunit
  rw [Composer.outputStart_eq] at hc'
  have hlatched : c'.latched = s0.latchedTiming side := by rw [hc']
  have htiming : c'.timing = ({ c with policy := policy } : Composer).timingAfter (s0.latchedTiming side) := by
    rw [hc']
  have hnext : c'.nextOut = s0.clock + (if c'.timing = .tracking then 20000 else c'.latched.nominal) := by rw [hc']
  refine ⟨?_, hother, fun h => ?_, fun hu h => ?_, ?_, ?_, ?_, ?_, ?_, ?_, ?_, ?_, ?_, ?_, ?_, ?_, ?_, ?_⟩
  · exact hrest
  · rw [hlatched, State.latchedTiming_fallback (s := s0) h]
    exact ⟨rfl, rfl⟩
  · rw [hlatched, State.latchedTiming_corrected (s := s0) hu h]
    rfl
  · rw [hc']
  · rw [hc', hclock]
  · rw [hc']
  · rw [hc']
  · rw [hc', hnow]
    cases c.prevOut <;> rfl
  · rw [htiming, hlatched, Composer.timingAfter_tracking]
  · rw [hnext, hclock]
  · rw [hc']
  all_goals rw [hunit]

end Sys2Proof.Machine
end

section
/-! SUPPORT. What an output frame start does to a view: the advance, the state, the reports and the region (R53, R55, R59
to R68). -/

namespace Sys2Proof.Machine

/-! ### The advance (R53) -/

/-- A buffer of a ring with a READY buffer, after the advance. -/
def Buffer.advanced (b : Buffer) : Buffer :=
  match b.status with
  | .ready => { b with status := .shown }
  | .shown => b.release
  | .free | .filling => b

theorem Buffer.advanced_status (b : Buffer) : b.advanced.status = .shown ↔ b.status = .ready := by
  unfold Buffer.advanced
  cases h : b.status <;> simp [h, Buffer.release]

theorem Buffer.advanced_of_ready {b : Buffer} (h : b.status = .ready) : b.advanced = { b with status := .shown } := by
  simp [Buffer.advanced, h]

theorem Ring.advance_of_ready {r : Ring} (h : r.has .ready = true) : r.advance = r.mapBuffers Buffer.advanced := by
  have hbuffer : ∀ b : Buffer,
      (if (if b.status = .shown then b.release else b).status = .ready then
        { (if b.status = .shown then b.release else b) with status := .shown }
      else if b.status = .shown then b.release else b) = b.advanced := fun b => by
    unfold Buffer.advanced
    cases hb : b.status <;> simp [hb, Buffer.release]
  simp only [Ring.advance, h, if_true, Ring.onStatus, Ring.mapBuffers]
  congr 1 <;> exact hbuffer _

theorem Ring.advance_of_not_ready {r : Ring} (h : r.has .ready = false) : r.advance = r := by simp [Ring.advance, h]

theorem Ring.advance_superseded (r : Ring) : r.advance.superseded = r.superseded := by
  unfold Ring.advance
  split <;> rfl

/-- The SHOWN buffer after the advance is the READY one before it. -/
theorem Ring.advance_find_shown {r : Ring} (h : r.has .ready = true) :
    r.advance.find .shown = (r.find .ready).map fun b => { b with status := .shown } := by
  rw [Ring.advance_of_ready h]
  simp only [Ring.find, Ring.mapBuffers, Buffer.advanced_status]
  split
  next h0 => rw [Buffer.advanced_of_ready h0]; rfl
  next =>
    split
    next h1 => rw [Buffer.advanced_of_ready h1]; rfl
    next =>
      split
      next h2 => rw [Buffer.advanced_of_ready h2]; rfl
      next => rfl

/-! ### The new state (R62 to R65) -/

section
variable {mode : Mode} {u : ViewUnit} {reaction : Reaction} {beyond newBuffer : Bool}

theorem shownOutcome_fst (reaction : Reaction) (beyond newBuffer : Bool) :
    (shownOutcome reaction beyond newBuffer).1 =
      if reaction = .degrade ∨ beyond = true then .lost else if newBuffer then .live else .holding := by
  unfold shownOutcome
  by_cases hr : reaction = .degrade
  · simp [hr]
  · cases beyond <;> cases newBuffer <;> simp [hr]

/-- Why a view that showed a picture is lost (R65). -/
def lossCause (reaction : Reaction) : Word := if reaction = .degrade then causeDegrade else causeHold

theorem shownOutcome_snd (reaction : Reaction) (beyond newBuffer : Bool) :
    (shownOutcome reaction beyond newBuffer).2 =
      if (shownOutcome reaction beyond newBuffer).1 = .lost then some (lossCause reaction) else none := by
  unfold shownOutcome lossCause
  by_cases hr : reaction = .degrade
  · simp [hr]
  · cases beyond <;> cases newBuffer <;> simp [hr]

theorem viewOutcome_shown (h : u.state.showsPicture = true) :
    viewOutcome .run u reaction beyond newBuffer = shownOutcome reaction beyond newBuffer := by
  cases hs : u.state <;> simp [hs, ViewState.showsPicture] at h <;> simp [viewOutcome, hs]

theorem viewOutcome_lost (h : u.state = .lost) :
    viewOutcome .run u reaction beyond newBuffer = (if recovers u reaction then .live else .lost, none) := by
  simp [viewOutcome, h]

/-- A cause is reported exactly when a view that showed a picture in RUN is lost (R65). -/
theorem viewOutcome_cause (mode : Mode) (u : ViewUnit) (reaction : Reaction) (beyond newBuffer : Bool) :
    (viewOutcome mode u reaction beyond newBuffer).2 =
      if (decide (mode = .run) && u.state.showsPicture &&
          decide ((viewOutcome mode u reaction beyond newBuffer).1 = .lost)) = true then some (lossCause reaction)
      else none := by
  cases mode with
  | config => rfl
  | run =>
    cases h : u.state.showsPicture with
    | true => simp [viewOutcome_shown h, ← shownOutcome_snd]
    | false => cases hs : u.state <;> simp [hs, ViewState.showsPicture] at h <;> simp [viewOutcome, hs]

end

/-! ### The view that comes out -/

section
variable (a : State) (v : View)

/-- Whether the hold timer of a view is beyond its limit (R60). -/
def State.beyondAtOutput : Bool :=
  holdBeyond (a.unit v.side).composer.completion a.now (a.view v).limits

/-- Whether a view that showed a picture enters LOST (R62). -/
def State.lostAtOutput : Bool :=
  decide (a.mode = .run) && (a.view v).state.showsPicture && decide ((a.viewAtOutput v).state = .lost)

theorem State.viewAtOutput_originX : (a.viewAtOutput v).originX = (a.view v).originX := rfl

theorem State.viewAtOutput_originY : (a.viewAtOutput v).originY = (a.view v).originY := rfl

theorem State.viewAtOutput_reaction : (a.viewAtOutput v).reaction = a.reactionAtOutput v := rfl

theorem State.viewAtOutput_ring : (a.viewAtOutput v).ring = (a.view v).ring.advance := rfl

theorem State.viewAtOutput_limits : (a.viewAtOutput v).limits = (a.view v).limits := rfl

theorem State.outcomeAtOutput_cause :
    (a.outcomeAtOutput v).2 =
      if a.lostAtOutput v = true then some (lossCause (a.reactionAtOutput v)) else none :=
  viewOutcome_cause ..

theorem State.viewAtOutput_state_config (h : a.mode = .config) : (a.viewAtOutput v).state = .notReady := by
  have hstate : (a.viewAtOutput v).state = (a.outcomeAtOutput v).1 := rfl
  rw [hstate, State.outcomeAtOutput, h]
  rfl

/-- The first outcome of R62 that holds. -/
theorem State.viewAtOutput_state_shown (h : a.mode = .run) (hs : (a.view v).state.showsPicture = true) :
    (a.viewAtOutput v).state =
      if a.reactionAtOutput v = .degrade ∨ a.beyondAtOutput v = true then .lost
      else if (a.view v).ring.has .ready then .live else .holding := by
  have hstate : (a.viewAtOutput v).state = (a.outcomeAtOutput v).1 := rfl
  rw [hstate, State.outcomeAtOutput, h, viewOutcome_shown (u := (a.view v).turn _) hs, shownOutcome_fst]
  rfl

/-- The recovery of R63. -/
theorem State.viewAtOutput_state_lost (h : a.mode = .run) (hs : (a.view v).state = .lost) :
    (a.viewAtOutput v).state =
      if (a.view v).limits.recoveryFrames ≤ (a.view v).recovery ∧ a.reactionAtOutput v ≠ .degrade ∧
        (a.viewAtOutput v).ring.has .shown = true then .live else .lost := by
  have hstate : (a.viewAtOutput v).state = (a.outcomeAtOutput v).1 := rfl
  rw [hstate, State.outcomeAtOutput, h, viewOutcome_lost (by exact hs)]
  refine if_congr ?_ rfl rfl
  rw [State.viewAtOutput_ring]
  by_cases hr : a.reactionAtOutput v = .degrade
  · simp [recovers, hr]
  · simp [recovers, ViewUnit.turn, hr]

theorem State.viewAtOutput_recovery :
    (a.viewAtOutput v).recovery =
      if a.reactionAtOutput v = .degrade ∨ a.lostAtOutput v = true then 0 else (a.view v).recovery := by
  have hrecovery : (a.viewAtOutput v).recovery =
      if (a.outcomeAtOutput v).2.isSome then 0
      else if a.reactionAtOutput v = .degrade then 0 else (a.view v).recovery := rfl
  rw [hrecovery, State.outcomeAtOutput_cause]
  cases a.lostAtOutput v <;> simp

theorem State.viewAtOutput_latency : (a.viewAtOutput v).latency = latencyOf (a.viewAtOutput v) a.now := rfl

theorem State.viewAtOutput_region : (a.viewAtOutput v).region = some (regionAtStart (a.viewAtOutput v)) := rfl

/-! ### Its reports -/

theorem State.level_pulses (s : State) (d : Descriptor) (on : Bool) (w : List Word) :
    (s.level d on w).faults.pulses = s.faults.pulses := by cases on <;> simp [State.level]

theorem State.level_inSet (s : State) (d : Descriptor) (on : Bool) (w : List Word) :
    inSet (s.level d on w).faults.conditions d = on := by cases on <;> simp [State.level]

theorem State.outputView_latency :
    inSet (a.outputView v).faults.conditions (.view v .latency) = (a.viewAtOutput v).late := by
  rw [State.outputView_faults, State.level_inSet]

/-- VIEW_LOST pulses for 500 ms when the view is lost. -/
theorem State.outputView_pulse :
    (a.outputView v).faults.pulses[(Descriptor.view v .viewLost).index.val]'(Descriptor.index _).isLt =
      if a.lostAtOutput v = true then some (a.clock + 500000)
      else a.faults.pulses[(Descriptor.view v .viewLost).index.val]'(Descriptor.index _).isLt := by
  simp only [State.outputView_faults, State.level_pulses, State.outcomeAtOutput_cause]
  by_cases hlost : a.lostAtOutput v = true
  · simp [hlost, State.reportLost, FaultManager.happened_pulses, Config.pulseTime]
  · simp [hlost, State.reportLost]

/-- An occurrence of a descriptor that is enabled and not flagged is logged while there is room (R123, R136). -/
theorem FaultManager.happened_log {fm : FaultManager} {d : Descriptor} (he : inSet fm.enables d = true)
    (hf : inSet fm.flags d = false) (hroom : fm.log.length < 32) (clock : Nat) (w : List Word) :
    (fm.happened clock d w).log = fm.log ++ [⟨fm.nextSequence, BitVec.ofNat 32 clock, d, w, fm.lost⟩] := by
  simp [FaultManager.happened, FaultManager.occur, he, hf, FaultManager.append, Config.logLimit, hroom]

theorem State.outputView_record (hlost : a.lostAtOutput v = true)
    (he : inSet a.faults.enables (.view v .viewLost) = true) (hf : inSet a.faults.flags (.view v .viewLost) = false)
    (hroom : a.faults.log.length < 32) :
    a.faults.log ++ [⟨a.faults.nextSequence, a.now, .view v .viewLost, [lossCause (a.reactionAtOutput v)],
      a.faults.lost⟩] <+: (a.outputView v).faults.log := by
  rw [State.outputView_faults, State.outcomeAtOutput_cause, if_pos hlost, State.now,
    ← FaultManager.happened_log he hf hroom a.clock]
  exact (State.level_sameFor (d := .core .resetSeen) (e := .view v .latency) (by simp) (a.reportLost v (some _)) _ _).log

end

/-! ### The effective reaction (R134) -/

/-- The reaction of a view looks at the descriptors that concern it. -/
theorem effectiveReaction_congr {fm fm' : FaultManager} {v : View}
    (h : ∀ d : Descriptor, d.concerns v = true → fm'.active d = fm.active d) (policy : List PolicyEntry) :
    effectiveReaction fm' policy v = effectiveReaction fm policy v := by
  have hfilter : (fun d : Descriptor => fm'.active d && d.concerns v) = fun d => fm.active d && d.concerns v := by
    funext d
    cases hc : d.concerns v
    · simp
    · rw [h d hc]
  unfold effectiveReaction
  rw [hfilter]

/-! ### A view in the course of an output frame start -/

/-- The state in which the composer works on a view: MAIN comes before WIDE. -/
def State.beforeView (s : State) (v : View) : State :=
  if v.isMain then s.afterLatches v.side else (s.afterLatches v.side).outputView v.side.mainView

section
variable (s : State) (v : View)

theorem View.eq_mainView {v : View} (h : v.isMain = true) : v.side.mainView = v := by
  cases v <;> simp [View.isMain] at h <;> rfl

theorem View.eq_wideView {v : View} (h : v.isMain = false) : v.side.wideView = v := by
  cases v <;> simp [View.isMain] at h <;> rfl

theorem View.wideView_ne (v : View) (h : v.isMain = true) : v ≠ v.side.wideView := by
  cases v <;> simp [View.isMain] at h <;> decide

theorem View.ne_mainView {v : View} (h : v.isMain = false) : v ≠ v.side.mainView := by
  cases v <;> simp [View.isMain] at h <;> decide

theorem State.beforeView_main (h : v.isMain = true) : s.beforeView v = s.afterLatches v.side := if_pos h

theorem State.beforeView_wide (h : v.isMain = false) :
    s.beforeView v = (s.afterLatches v.side).outputView v.side.mainView := by simp [State.beforeView, h]

theorem State.beforeView_onlySide : OnlySide v.side s (s.beforeView v) := by
  have hlatches := s.afterLatches_onlySide v.side
  have hmain := (s.afterLatches v.side).outputView_onlySide v.side.mainView
  rw [Side.mainView_side] at hmain
  unfold State.beforeView
  split
  · exact hlatches
  · exact hlatches.trans hmain

/-- Before its turn a view has its new limits and nothing else new. -/
theorem State.beforeView_view : (s.beforeView v).view v = { s.view v with limits := s.latchedLimits v } := by
  cases h : v.isMain
  · rw [State.beforeView_wide s v h, State.outputView_view_of_ne _ (View.ne_mainView h), State.afterLatches_view]
  · rw [State.beforeView_main s v h, State.afterLatches_view]

theorem State.beforeView_composer :
    ((s.beforeView v).unit v.side).composer = ((s.afterLatches v.side).unit v.side).composer := by
  unfold State.beforeView
  split
  · rfl
  · exact State.outputView_composer ..

/-- The work on MAIN reports nothing that concerns WIDE. -/
theorem State.beforeView_sameFor {d : Descriptor} (h : d.concerns v = true) :
    FaultManager.SameFor d (s.afterLatches v.side).faults (s.beforeView v).faults := by
  cases hm : v.isMain
  · have hne : ∀ k, d ≠ .view v.side.mainView k := by
      rintro k rfl
      simp only [Descriptor.concerns, beq_iff_eq] at h
      exact View.ne_mainView hm h
    rw [State.beforeView_wide s v hm]
    exact State.outputView_sameFor (hne _) (hne _) _
  · rw [State.beforeView_main s v hm]
    exact .refl d _

theorem State.beforeView_reaction :
    (s.beforeView v).reactionAtOutput v =
      effectiveReaction (s.afterLatches v.side).faults ((s.afterLatches v.side).unit v.side).composer.policy v := by
  rw [State.reactionAtOutput, State.beforeView_composer]
  exact effectiveReaction_congr (fun d hd => (s.beforeView_sameFor v hd).active) _

/-- The reports on a view's own descriptors start with the composer's work on it. -/
theorem State.beforeView_sameFor_own (k : ViewKind) :
    FaultManager.SameFor (.view v k) s.faults (s.beforeView v).faults :=
  (State.afterLatches_sameFor (by simp) (by simp) s v.side).trans
    (s.beforeView_sameFor v (by simp [Descriptor.concerns]))

@[simp] theorem State.modChannel_view (side : Side) (f : Link → Link) : (s.modChannel side f).view v = s.view v := by
  cases v <;> cases side <;> rfl

@[simp] theorem State.modComposer_view (side : Side) (f : Composer → Composer) :
    (s.modComposer side f).view v = s.view v := by cases v <;> cases side <;> rfl

@[simp] theorem State.modLight_view (side : Side) (f : Light → Light) : (s.modLight side f).view v = s.view v := by
  cases v <;> cases side <;> rfl

@[simp] theorem State.latch_view (k : Kind) (offs : List Nat) : (s.latch k offs).2.view v = s.view v := by
  simp [State.view]

theorem State.takeOutputStart_view_eq (side : Side) :
    (s.takeOutputStart side).view v = (s.afterViews side).view v := by
  simp [State.takeOutputStart_eq, State.captureTrailer, State.backlightStart]

theorem State.takeOutputStart_view : (s.takeOutputStart v.side).view v = (s.beforeView v).viewAtOutput v := by
  rw [State.takeOutputStart_view_eq, State.afterViews]
  cases h : v.isMain
  · rw [State.beforeView_wide s v h, ← State.outputView_view, View.eq_wideView h]
  · rw [State.outputView_view_of_ne _ (View.wideView_ne v h), View.eq_mainView h, State.outputView_view,
      State.beforeView_main s v h]

theorem State.takeOutputStart_faults (side : Side) {d : Descriptor} (hsec : d ≠ .core .tableSec)
    (hded : d ≠ .core .tableDed) :
    FaultManager.SameFor d (s.afterViews side).faults (s.takeOutputStart side).faults := by
  rw [State.takeOutputStart_eq]
  unfold State.captureTrailer State.backlightStart
  dsimp only
  rw [State.modComposer_faults, State.modChannel_faults, State.modLight_faults]
  generalize hstart : (s.afterViews side).modComposer side _ = b
  rw [show (s.afterViews side).faults = b.faults by rw [← hstart, State.modComposer_faults]]
  exact State.latch_sameFor hsec hded b .light backlightWords

/-- After the composer's work on a view nothing is reported on its descriptors. -/
theorem State.takeOutputStart_sameFor (k : ViewKind) :
    FaultManager.SameFor (.view v k) ((s.beforeView v).outputView v).faults (s.takeOutputStart v.side).faults := by
  refine .trans ?_ (s.takeOutputStart_faults v.side (by simp) (by simp))
  rw [State.afterViews]
  cases h : v.isMain
  · rw [State.beforeView_wide s v h, View.eq_wideView h]
    exact .refl _ _
  · have hne : ∀ j, Descriptor.view v k ≠ .view v.side.wideView j := by
      intro j he
      exact View.wideView_ne v h (Descriptor.view.inj he).1
    rw [State.beforeView_main s v h, View.eq_mainView h]
    exact State.outputView_sameFor (hne _) (hne _) _

end

/-! ### The limits of a view (R59) -/

section
variable {s : State} {v : View}

theorem composerViewWords_nodup (side : Side) : (composerViewWords side).Nodup := by cases side <;> decide

theorem mem_composerViewWords (v : View) :
    8 * v.index + 4 ∈ composerViewWords v.side ∧ 8 * v.index + 5 ∈ composerViewWords v.side := by
  cases v <;> decide

theorem State.latchedLimits_fallback
    (h : s.tables.usable .view = false ∨ ∃ off, off ∈ composerViewWords v.side ∧
      2 ≤ (s.tables.word .view (s.tables.kind .view).live off).errors) : s.latchedLimits v = ⟨100, 5, 100000⟩ := by
  rw [State.latchedLimits, State.latch_fallback (composerViewWords_nodup v.side) h]
  rfl

theorem State.latchedLimits_corrected (hu : s.tables.usable .view = true)
    (h : ∀ off, off ∈ composerViewWords v.side →
      (s.tables.word .view (s.tables.kind .view).live off).errors < 2) :
    let word := fun i => s.tables.word .view (s.tables.kind .view).live (8 * v.index + i)
    s.latchedLimits v = ⟨bits (word 4).data 0 9, bits (word 4).data 16 5, bits (word 5).data 0 18⟩ := by
  intro word
  obtain ⟨h4, h5⟩ := mem_composerViewWords v
  rw [State.latchedLimits, State.latch_corrected hu (composerViewWords_nodup v.side) h]
  simp only [limitsFor, Option.map_some, Option.getD_some, viewLimitsOf, wordAt_corrected _ _ _ h4,
    wordAt_corrected _ _ _ h5]
  rfl

end

/-- A record that was added lies behind those before. -/
theorem mem_drop_of_prefix {α : Type} {l m n : List α} {r : α} (h : l <+: m) (h' : m ++ [r] <+: n) :
    r ∈ n.drop l.length := by
  obtain ⟨x, rfl⟩ := h
  obtain ⟨y, rfl⟩ := h'
  simp

theorem latencyOf_shown {x : ViewUnit} (h : x.state.showsPicture = true) {b : Buffer} (hb : x.ring.find .shown = some b)
    (now : Time) : latencyOf x now = b.record.map fun r => now - r.capture := by
  simp only [latencyOf, h, if_true, hb]
  rfl

theorem regionAtStart_shown {x : ViewUnit} (h : x.state.showsPicture = true) {b : Buffer}
    (hb : x.ring.find .shown = some b) : regionAtStart x = .reading b.picture (decide (x.reaction = .warn)) := by
  cases hs : x.state <;> simp [hs, ViewState.showsPicture] at h <;> simp [regionAtStart, hs, hb]

/-- Settles O49: the view that comes out is `State.viewAtOutput` of the state before its turn, and the reports are those
of `State.outputView`. -/
theorem viewsTurnAtAnOutputFrameStart : Obligations.ViewsTurnAtAnOutputFrameStart := by
  unfold Obligations.ViewsTurnAtAnOutputFrameStart
  intro t v s hdue latched u word newBuffer
  refine ⟨(s.advance t).takeOutputStart v.side, exec_outputFrameStart_due t hdue, ?_⟩
  have hu' := (s.advance t).takeOutputStart_view v
  have hreaction := (s.advance t).beforeView_reaction v
  have honly := (s.advance t).beforeView_onlySide v
  have hview := (s.advance t).beforeView_view v
  have hbefore := (s.advance t).beforeView_sameFor_own v
  have hafter := (s.advance t).takeOutputStart_sameFor v
  have hclock : ((s.advance t).takeOutputStart v.side).clock = (s.advance t).clock :=
    ((s.advance t).takeOutputStart_onlySide v.side).clock
  have hcompletion : (((s.advance t).beforeView v).unit v.side).composer.completion =
      (s.unit v.side).composer.completion := by
    obtain ⟨_, _, policy, h⟩ := (s.advance t).afterLatches_unit v.side
    rw [State.beforeView_composer, h, State.advance_unit]
  generalize (s.advance t).beforeView v = a at *
  generalize hs' : (s.advance t).takeOutputStart v.side = s' at *
  have hmode : a.mode = s.mode := honly.mode
  have haclock : a.clock = (s.advance t).clock := honly.clock
  have hnow : a.now = t := by rw [State.now, haclock]; exact s.advance_now t
  rw [State.advance_view] at hview
  intro u' beyond entered
  replace hu' : u' = a.viewAtOutput v := hu'
  have hlimits : u'.limits = (s.advance t).latchedLimits v := by rw [hu', State.viewAtOutput_limits, hview]
  have hring : u'.ring = u.ring.advance := by rw [hu', State.viewAtOutput_ring, hview]
  have hreact : u'.reaction = a.reactionAtOutput v := by rw [hu', State.viewAtOutput_reaction]
  have hbeyond : beyond = a.beyondAtOutput v := by
    simp only [beyond, State.beyondAtOutput, hcompletion, hnow, hlimits, hview]
    cases (s.unit v.side).composer.completion <;> rfl
  have hentered : entered = a.lostAtOutput v := by
    simp only [entered, State.lostAtOutput, hmode, hview, hu']
    rfl
  refine ⟨?_, ?_, ?_, fun h => ?_, fun hu h => ?_, ?_, fun hn => ⟨?_, ?_⟩, fun hn => ?_, fun hm => ?_, fun hm hs => ?_,
    fun hm hs => ?_, ?_, ?_, fun he hen hfl hroom => ?_, fun hs => ?_, fun hs b hb => ⟨?_, ?_⟩, ?_, fun hs => ?_,
    fun hs => ?_⟩
  · rw [hu', State.viewAtOutput_originX, hview]
  · rw [hu', State.viewAtOutput_originY, hview]
  · rw [hring, Ring.advance_superseded]
  · rw [hlimits, State.latchedLimits_fallback (s := s.advance t) h]
  · rw [hlimits, State.latchedLimits_corrected (s := s.advance t) hu h]
    rfl
  · rw [hreact, hreaction]
    rfl
  · rw [hring, Ring.advance_has_ready]
  · rw [hring, Ring.advance_find_shown hn]
  · rw [hring, Ring.advance_of_not_ready hn]
  · rw [hu', State.viewAtOutput_state_config a v (hmode.trans hm)]
  · have hpic : (a.view v).state.showsPicture = true := by
      rw [hview]
      rcases hs with hs | hs <;> exact hs ▸ rfl
    rw [hreact, hbeyond, hu', State.viewAtOutput_state_shown a v (hmode.trans hm) hpic, hview]
  · have hlost : (a.view v).state = .lost := by rw [hview]; exact hs
    rw [hreact, hlimits, hu', State.viewAtOutput_state_lost a v (hmode.trans hm) hlost, hview]
  · rw [hreact, hentered, hu', State.viewAtOutput_recovery, hview]
  · rw [(hafter .viewLost).pulse, State.outputView_pulse, (hbefore .viewLost).pulse, hentered, hclock, haclock]
    rfl
  · have hown := hbefore .viewLost
    have hrecord := a.outputView_record v (hentered ▸ he) (hown.enables ▸ hen) (hown.flag ▸ hfl)
      (((a.outputView_log_prefix v).trans (hafter .viewLost).log).length_le.trans_lt hroom)
    refine ⟨_, mem_drop_of_prefix hown.log (hrecord.trans (hafter .viewLost).log), rfl, hnow, ?_⟩
    rw [hreact]
    rfl
  · rw [hu', State.viewAtOutput_latency, latencyOf, ← hu', hs]
    rfl
  · rw [hu', State.viewAtOutput_latency, ← hu', hnow, latencyOf_shown hs hb]
  · rw [hu', State.viewAtOutput_region, ← hu', regionAtStart_shown hs hb]
  · rw [(hafter .latency).condition, State.outputView_latency, ← hu']
    rfl
  · rw [hu', State.viewAtOutput_region, ← hu', regionAtStart, hs]
  · rw [hu', State.viewAtOutput_region, ← hu', regionAtStart, hs]

end Sys2Proof.Machine
end

section
/-! SUPPORT. GET_GLARE (R99, R209): the bytes of a slot and of a side's glare status. -/

namespace Sys2Proof.Machine

theorem sideOf_code (side : Side) : sideOf (BitVec.ofNat 8 side.code) = some side := by cases side <;> rfl

/-- A FREE slot reports attenuation 256 and every other field 0 (R83, R209). -/
theorem slotBytes_free {x : Track} (h : x.state = .free) :
    slotBytes x = [0, 0, 0, 0, 0, 0, 0, 0, 0, 0, 0, 0, 0, 1, 0, 0] := by
  simp only [slotBytes, Track.shown, h, if_true]
  rfl

/-- A slot with a track reports its fields (R209). -/
theorem slotBytes_track {x : Track} (h : x.state ≠ .free) :
    slotBytes x =
      [BitVec.ofNat 8 x.state.code, x.id, BitVec.ofNat 8 x.qx, BitVec.ofNat 8 x.qy, BitVec.ofInt 8 x.vx,
        BitVec.ofInt 8 x.vy, BitVec.ofNat 8 x.box.x0, BitVec.ofNat 8 x.box.x1, BitVec.ofNat 8 x.box.y0,
        BitVec.ofNat 8 x.box.y1, x.history, BitVec.ofNat 8 x.misses] ++ bytes2 x.attenuation ++ bytes2 x.target := by
  simp [slotBytes, Track.shown, h, byte1]

/-- The six slots of a tracker, one by one. -/
theorem flatMap_slots {α β : Type} (v : Vector α 6) (f : α → List β) :
    v.toList.flatMap f = f v[0] ++ f v[1] ++ f v[2] ++ f v[3] ++ f v[4] ++ f v[5] := by
  have hv : v.toList = [v[0], v[1], v[2], v[3], v[4], v[5]] := by
    refine List.ext_getElem (by simp) fun i hi _ => ?_
    have hi6 : i < 6 := by simpa using hi
    interval_cases i <;> simp
  simp [hv]

/-- Commands are taken without a change of a tracker or a report. -/
theorem glareBytes_takeCommand (s : State) (t : Time) (link side : Side) :
    glareBytes ((s.advance t).takeCommand link) side = glareBytes s side := by
  cases link <;> cases side <;> rfl

/-- A change of a tracker between taking a command and answering it is one of the state before. -/
theorem respond_modGlare (s : State) (link side : Side) (c : Command) (st : Status) (p : List Byte)
    (f : Glare → Glare) :
    ((s.takeCommand link).modGlare side f).respond link c ⟨st, p⟩ = (s.modGlare side f).answered link c st p := by
  rw [← respond_take]
  cases link <;> cases side <;> rfl

/-- Settles O16: the command is taken, its bytes are those of the state it finds, and the dropped counts are cleared. -/
theorem getGlareReportsAndClearsTheDrops : Obligations.GetGlareReportsAndClearsTheDrops := by
  unfold Obligations.GetGlareReportsAndClearsTheDrops
  intro t link tag side s c g slot hready
  have hslot : slotBytes = slot := by
    funext x
    by_cases hx : x.state = .free
    · rw [slotBytes_free hx]; exact (if_pos hx).symm
    · rw [slotBytes_track hx]; exact (if_neg hx).symm
  have hbody : ∀ a : State, getGlareBody c.param a =
      (⟨.ok, glareBytes a side⟩, a.modGlare side fun y => { y with droppedComponents := 0, droppedCandidates := 0 }) :=
    fun a => by simp only [getGlareBody, withSide, c, sideOf_code]
  have hbytes : glareBytes s side =
      [BitVec.ofNat 8 g.candidates.length, BitVec.ofNat 8 g.droppedComponents, BitVec.ofNat 8 g.droppedCandidates] ++
        bytes2 g.hotTotal ++
        [BitVec.ofNat 8 ((if inSet s.faults.conditions (.cam side .glareOverload) then 1 else 0) +
          (if g.running then 2 else 0))] ++
        slot g.tracks[0] ++ slot g.tracks[1] ++ slot g.tracks[2] ++ slot g.tracks[3] ++ slot g.tracks[4] ++
        slot g.tracks[5] := by
    have hrunning : 2 * bitOf g.running = if g.running then 2 else 0 := by cases g.running <;> rfl
    rw [glareBytes, flatMap_slots, hslot, hrunning]
    simp only [byte1, bitOf, List.append_assoc, List.cons_append, List.nil_append, g]
  show s.command t link 0x22 tag c.param (getGlareBody c.param) = _
  rw [command_ready hready, hbody, respond_modGlare, glareBytes_takeCommand, hbytes]

end Sys2Proof.Machine
end

section
/-! SUPPORT. The components of the hot cells (R79, R81): a flood reaches all that hangs together and nothing else; and
the stable sort that orders components and pairs. -/

namespace Sys2Proof.Machine

/-! ### The stable sort -/

section
variable {α : Type} (before : α → α → Bool)

theorem insertBy_perm (x : α) (l : List α) : (insertBy before x l).Perm (x :: l) := by
  induction l with
  | nil => exact .refl _
  | cons y ys ih =>
    unfold insertBy
    split
    · exact .refl _
    · exact (ih.cons y).trans (.swap x y ys)

theorem sortBy_perm (l : List α) : (sortBy before l).Perm l := by
  induction l with
  | nil => exact .refl _
  | cons x xs ih => exact (insertBy_perm _ x _).trans (ih.cons x)

/-- The order of a sorted list: by `before`, and where it does not part two elements, the order they came in. -/
def StableOrder (r : α → α → Prop) (a b : α) : Prop := before a b = true ∨ (before b a = false ∧ r a b)

variable {before} (hasymm : ∀ a b, before a b = true → before b a = false)
  (htrans : ∀ a b c, before a b = false → before b c = false → before a c = false)
include hasymm htrans

theorem insertBy_pairwise {r : α → α → Prop} {x : α} {l : List α} (hx : ∀ y ∈ l, r x y)
    (h : l.Pairwise (StableOrder before r)) :
    (insertBy (fun a b => !before b a) x l).Pairwise (StableOrder before r) := by
  induction l with
  | nil => exact List.pairwise_singleton ..
  | cons y ys ih =>
    obtain ⟨hy, hys⟩ := List.pairwise_cons.1 h
    have hrest : ∀ z ∈ ys, r x z := fun z hz => hx z (List.mem_cons_of_mem y hz)
    unfold insertBy
    split
    next hfront =>
      have hyx : before y x = false := by simpa using hfront
      refine List.pairwise_cons.2 ⟨fun z hz => .inr ⟨?_, hx z hz⟩, h⟩
      rcases List.mem_cons.1 hz with rfl | hz
      · exact hyx
      · exact htrans z y x ((hy z hz).elim (hasymm y z) (·.1)) hyx
    next hbehind =>
      have hyx : before y x = true := by simpa using hbehind
      refine List.pairwise_cons.2 ⟨fun z hz => ?_, ih hrest hys⟩
      rcases List.mem_cons.1 ((insertBy_perm _ x ys).mem_iff.1 hz) with rfl | hz
      · exact .inl hyx
      · exact hy z hz

theorem sortBy_pairwise {r : α → α → Prop} {l : List α} (h : l.Pairwise r) :
    (sortBy before l).Pairwise (StableOrder before r) := by
  induction l with
  | nil => exact .nil
  | cons x xs ih =>
    obtain ⟨hx, hxs⟩ := List.pairwise_cons.1 h
    exact insertBy_pairwise hasymm htrans (fun y hy => hx y ((sortBy_perm before xs).mem_iff.1 hy)) (ih hxs)

end

/-! ### Hot cells -/

/-- A cell of the map is hot. -/
def isHot (map : List Bool) (a : Nat) : Prop := map[a]? = some true

theorem mem_hotCells {map : List Bool} {a : Nat} : a ∈ hotCells map ↔ isHot map a := by
  simp [hotCells, isHot, List.mem_zipIdx_iff_getElem?]

/-- The elements of a list come with rising indices. -/
theorem zipIdx_pairwise {α : Type} (l : List α) : l.zipIdx.Pairwise (fun p q => p.2 < q.2) := by
  rw [← List.pairwise_map (f := Prod.snd) (R := (· < ·)), List.zipIdx_map_snd]
  exact List.pairwise_lt_range'

theorem hotCells_pairwise (map : List Bool) : (hotCells map).Pairwise (· < ·) :=
  List.pairwise_map.2 ((zipIdx_pairwise map).filter _)

theorem hotCells_length_le (map : List Bool) : (hotCells map).length ≤ map.length := by
  rw [hotCells, List.length_map]
  exact (List.length_filter_le ..).trans_eq List.length_zipIdx

theorem adjacent_iff {a b : Nat} :
    adjacent a b = true ↔
      (a / 30 = b / 30 ∧ (a % 30 + 1 = b % 30 ∨ b % 30 + 1 = a % 30)) ∨
        (a % 30 = b % 30 ∧ (a / 30 + 1 = b / 30 ∨ b / 30 + 1 = a / 30)) := by
  simp only [adjacent, Bool.or_eq_true, Bool.and_eq_true, beq_iff_eq]

theorem adjacent_comm (a b : Nat) : adjacent a b = adjacent b a := by
  rw [Bool.eq_iff_iff, adjacent_iff, adjacent_iff]
  omega

/-- Two hot cells are neighbours (R79). -/
def touches (map : List Bool) (a b : Nat) : Prop := isHot map a ∧ isHot map b ∧ adjacent a b = true

theorem touches_symm {map : List Bool} {a b : Nat} (h : touches map a b) : touches map b a :=
  ⟨h.2.1, h.1, adjacent_comm a b ▸ h.2.2⟩

theorem reaches_symm {map : List Bool} {a b : Nat} (h : Relation.ReflTransGen (touches map) a b) :
    Relation.ReflTransGen (touches map) b a := by
  induction h with
  | refl => exact .refl
  | tail _ htouch ih => exact ih.head (touches_symm htouch)

/-- Cells that hold every neighbour of theirs hold all that they reach. -/
theorem mem_of_reaches {map : List Bool} {cells : List Nat} (hclosed : ∀ a ∈ cells, ∀ b, touches map a b → b ∈ cells)
    {a b : Nat} (ha : a ∈ cells) (h : Relation.ReflTransGen (touches map) a b) : b ∈ cells := by
  induction h with
  | refl => exact ha
  | tail _ htouch ih => exact hclosed _ ih _ htouch

/-! ### Growing one component (R79) -/

/-- A flood loses no cell and gains none. -/
theorem flood_perm (fuel : Nat) (todo rest comp : List Nat) :
    ((flood fuel todo rest comp).1 ++ (flood fuel todo rest comp).2).Perm (comp ++ (todo ++ rest)) := by
  fun_induction flood fuel todo rest comp with
  | case1 todo rest comp => rw [List.append_assoc]
  | case2 fuel rest comp => exact .refl _
  | case3 fuel c todo rest comp ih =>
    have hparts := List.filter_append_perm (adjacent c) rest
    refine ih.trans ?_
    simp only [List.append_assoc, List.cons_append, List.nil_append]
    exact ((hparts.append_left todo).cons c).append_left comp

/-- The cells already reached come first. -/
theorem flood_prefix (fuel : Nat) (todo rest comp : List Nat) : comp ++ todo <+: (flood fuel todo rest comp).1 := by
  fun_induction flood fuel todo rest comp with
  | case1 todo rest comp => exact List.prefix_rfl
  | case2 fuel rest comp => rw [List.append_nil]
  | case3 fuel c todo rest comp ih =>
    refine (List.prefix_append (comp ++ c :: todo) (rest.filter (adjacent c))).trans ?_
    simpa using ih

theorem flood_sublist (fuel : Nat) (todo rest comp : List Nat) :
    (flood fuel todo rest comp).2.Sublist rest := by
  fun_induction flood fuel todo rest comp with
  | case1 todo rest comp => exact .refl _
  | case2 fuel rest comp => exact .refl _
  | case3 fuel c todo rest comp ih => exact ih.trans List.filter_sublist

/-- With fuel for every cell, no cell left over is a neighbour of the component. -/
theorem flood_separates {fuel : Nat} {todo rest comp : List Nat} (hfuel : todo.length + rest.length < fuel)
    (h : ∀ a ∈ comp, ∀ d ∈ rest, adjacent a d = false) :
    ∀ a ∈ (flood fuel todo rest comp).1, ∀ d ∈ (flood fuel todo rest comp).2, adjacent a d = false := by
  fun_induction flood fuel todo rest comp with
  | case1 todo rest comp => omega
  | case2 fuel rest comp => exact h
  | case3 fuel c todo rest comp ih =>
    have hparts := (List.filter_append_perm (adjacent c) rest).length_eq
    refine ih ?_ fun a ha d hd => ?_
    · simp only [List.length_append, List.length_cons] at *
      omega
    · obtain ⟨hd, hcd⟩ := List.mem_filter.1 hd
      rcases List.mem_append.1 ha with ha | ha
      · exact h a ha d hd
      · rw [List.mem_singleton.1 ha]
        simpa using hcd

/-- What a flood reaches is reached by steps between neighbours. -/
theorem flood_reaches {T : Nat → Nat → Prop} {x fuel : Nat} {todo rest comp : List Nat}
    (hT : ∀ a ∈ todo ++ rest, ∀ b ∈ rest, adjacent a b = true → T a b)
    (h : ∀ b ∈ comp ++ todo, Relation.ReflTransGen T x b) :
    ∀ b ∈ (flood fuel todo rest comp).1, Relation.ReflTransGen T x b := by
  fun_induction flood fuel todo rest comp with
  | case1 todo rest comp => exact h
  | case2 fuel rest comp => simpa using h
  | case3 fuel c todo rest comp ih =>
    refine ih (fun a ha b hb => hT a ?_ b (List.mem_filter.1 hb).1) fun b hb => ?_
    · simp only [List.mem_append, List.mem_filter, List.mem_cons] at ha ⊢
      tauto
    · simp only [List.mem_append, List.mem_filter, List.mem_singleton] at hb
      rcases hb with (hb | rfl) | hb | ⟨hb, hcb⟩
      · exact h b (by simp [hb])
      · exact h b (by simp)
      · exact h b (by simp [hb])
      · exact (h c (by simp)).tail (hT c (by simp) b hb hcb)

/-! ### All components (R79) -/

theorem componentsOf_cons (fuel c : Nat) (cs : List Nat) :
    componentsOf (fuel + 1) (c :: cs) =
      (flood 601 [c] cs []).1 :: componentsOf fuel (flood 601 [c] cs []).2 := rfl

theorem flood_start_perm (c : Nat) (cs : List Nat) :
    ((flood 601 [c] cs []).1 ++ (flood 601 [c] cs []).2).Perm (c :: cs) := flood_perm 601 [c] cs []

theorem mem_flood_start {c a : Nat} {cs : List Nat} :
    a ∈ c :: cs ↔ a ∈ (flood 601 [c] cs []).1 ∨ a ∈ (flood 601 [c] cs []).2 := by
  rw [← (flood_start_perm c cs).mem_iff, List.mem_append]

theorem mem_flood_self (c : Nat) (cs : List Nat) : c ∈ (flood 601 [c] cs []).1 :=
  (flood_prefix 601 [c] cs []).subset (by simp)

section
variable {fuel : Nat} {cells : List Nat}

/-- Every cell lies in a component, once. -/
theorem componentsOf_flatten_perm (h : cells.length ≤ fuel) : (componentsOf fuel cells).flatten.Perm cells := by
  induction fuel generalizing cells with
  | zero => rw [List.length_eq_zero_iff.1 (Nat.le_zero.1 h)]; exact .refl _
  | succ fuel ih =>
    cases cells with
    | nil => exact .refl _
    | cons c cs =>
      have hrest : (flood 601 [c] cs []).2.length ≤ fuel :=
        (flood_sublist 601 [c] cs []).length_le.trans (Nat.le_of_succ_le_succ h)
      rw [componentsOf_cons, List.flatten_cons]
      exact ((ih hrest).append_left _).trans (flood_start_perm c cs)

theorem nil_not_mem_componentsOf : [] ∉ componentsOf fuel cells := by
  induction fuel generalizing cells with
  | zero => exact List.not_mem_nil
  | succ fuel ih =>
    cases cells with
    | nil => exact List.not_mem_nil
    | cons c cs =>
      rw [componentsOf_cons, List.mem_cons, not_or]
      have hne : (flood 601 [c] cs []).1 ≠ [] := List.ne_nil_of_mem (mem_flood_self c cs)
      exact ⟨hne.symm, ih⟩

/-- A component holds exactly the cells that one of its cells reaches. -/
theorem mem_componentsOf_iff {map : List Bool} (hlength : cells.length ≤ 600) (hhot : ∀ a ∈ cells, isHot map a)
    (hclosed : ∀ a ∈ cells, ∀ b, touches map a b → b ∈ cells) {c : List Nat} (hc : c ∈ componentsOf fuel cells)
    {a b : Nat} (ha : a ∈ c) : b ∈ c ↔ Relation.ReflTransGen (touches map) a b := by
  induction fuel generalizing cells with
  | zero => cases hc
  | succ fuel ih =>
    cases cells with
    | nil => cases hc
    | cons x xs =>
      have hseparate := flood_separates (fuel := 601) (todo := [x]) (rest := xs) (comp := [])
        (by simp only [List.length_cons] at hlength; simp; omega) (by simp)
      have hreach := flood_reaches (fuel := 601) (todo := [x]) (rest := xs) (comp := []) (T := touches map)
        (x := x) (fun a ha b hb h => ⟨hhot a ha, hhot b (List.mem_cons_of_mem x hb), h⟩)
        (by simp [Relation.ReflTransGen.refl])
      have hsplit : ∀ {a b}, a ∈ x :: xs → touches map a b →
          b ∈ (flood 601 [x] xs []).1 ∨ b ∈ (flood 601 [x] xs []).2 := fun ha htouch =>
        mem_flood_start.1 (hclosed _ ha _ htouch)
      have hapart : ∀ {a b}, a ∈ (flood 601 [x] xs []).1 → b ∈ (flood 601 [x] xs []).2 → ¬ touches map a b :=
        fun ha hb htouch => Bool.false_ne_true ((hseparate _ ha _ hb).symm.trans htouch.2.2)
      rw [componentsOf_cons] at hc
      rcases List.mem_cons.1 hc with rfl | hc
      · refine ⟨fun hb => (reaches_symm (hreach a ha)).trans (hreach b hb), mem_of_reaches ?_ ha⟩
        exact fun a ha b htouch => (hsplit (mem_flood_start.2 (.inl ha)) htouch).resolve_right fun hb =>
          hapart ha hb htouch
      · refine ih (((flood_sublist 601 [x] xs []).length_le.trans (Nat.le_succ _)).trans hlength)
          (fun a ha => hhot a (mem_flood_start.2 (.inr ha))) ?_ hc
        exact fun a ha b htouch => (hsplit (mem_flood_start.2 (.inr ha)) htouch).resolve_left fun hb =>
          hapart hb ha (touches_symm htouch)

/-! ### Their order (R79, R81) -/

theorem leastOf_mem {c : List Nat} (h : c ≠ []) : leastOf c ∈ c := by
  obtain ⟨n, hn⟩ := Option.isSome_iff_exists.1 (List.isSome_min?_of_ne_nil h)
  rw [leastOf, hn]
  exact List.min?_mem hn

theorem leastOf_eq {c : List Nat} {a : Nat} (ha : a ∈ c) (h : ∀ b ∈ c, a ≤ b) : leastOf c = a := by
  rw [leastOf, List.min?_eq_some_iff.2 ⟨ha, h⟩, Option.getD_some]

/-- The components come in the raster order of their first cells. -/
theorem componentsOf_pairwise (h : cells.Pairwise (· < ·)) (hlength : cells.length ≤ fuel) :
    (componentsOf fuel cells).Pairwise (fun c d => leastOf c < leastOf d) := by
  induction fuel generalizing cells with
  | zero => exact .nil
  | succ fuel ih =>
    cases cells with
    | nil => exact .nil
    | cons x xs =>
      obtain ⟨hx, hxs⟩ := List.pairwise_cons.1 h
      have hsub := flood_sublist 601 [x] xs []
      have hrest : (flood 601 [x] xs []).2.length ≤ fuel := hsub.length_le.trans (Nat.le_of_succ_le_succ hlength)
      have hfirst : leastOf (flood 601 [x] xs []).1 = x := leastOf_eq (mem_flood_self x xs) fun b hb =>
        (List.mem_cons.1 (mem_flood_start.2 (.inl hb))).elim (fun e => e.ge) fun hb => (hx b hb).le
      rw [componentsOf_cons]
      refine List.pairwise_cons.2 ⟨fun d hd => ?_, ih (hxs.sublist hsub) hrest⟩
      have hne : d ≠ [] := fun e => nil_not_mem_componentsOf (e ▸ hd)
      have hmem := (componentsOf_flatten_perm hrest).mem_iff.1 (List.mem_flatten.2 ⟨d, hd, leastOf_mem hne⟩)
      rw [hfirst]
      exact hx _ (hsub.subset hmem)

end

/-- The components of a map, largest first, and those of equal size in raster order (R81). -/
def hotComponents (map : List Bool) : List (List Nat) := orderComponents (componentsOf 600 (hotCells map))

theorem hotComponents_perm (map : List Bool) : (hotComponents map).Perm (componentsOf 600 (hotCells map)) :=
  sortBy_perm _ _

theorem nil_not_mem_hotComponents (map : List Bool) : [] ∉ hotComponents map := fun h =>
  nil_not_mem_componentsOf ((hotComponents_perm map).mem_iff.1 h)

section
variable {map : List Bool} (hmap : map.length = 600)
include hmap

theorem hotCells_length_le_600 : (hotCells map).length ≤ 600 := (hotCells_length_le map).trans_eq hmap

theorem hotComponents_flatten_perm : (hotComponents map).flatten.Perm (hotCells map) :=
  (hotComponents_perm map).flatten.trans (componentsOf_flatten_perm (hotCells_length_le_600 hmap))

theorem isHot_iff_mem_component {a : Nat} : isHot map a ↔ ∃ c, c ∈ hotComponents map ∧ a ∈ c := by
  rw [← mem_hotCells, ← (hotComponents_flatten_perm hmap).mem_iff, List.mem_flatten]

theorem hotComponents_nodup : (hotComponents map).flatten.Nodup :=
  (hotComponents_flatten_perm hmap).nodup_iff.2 ((hotCells_pairwise map).imp Nat.ne_of_lt)

theorem mem_hotComponents_iff {c : List Nat} (hc : c ∈ hotComponents map) {a b : Nat} (ha : a ∈ c) :
    b ∈ c ↔ Relation.ReflTransGen (touches map) a b :=
  mem_componentsOf_iff (hotCells_length_le_600 hmap) (fun _ => mem_hotCells.1) (fun _ _ _ h => mem_hotCells.2 h.2.1)
    ((hotComponents_perm map).mem_iff.1 hc) ha

theorem hotComponents_pairwise : (hotComponents map).Pairwise (fun c d =>
    d.length < c.length ∨ (d.length = c.length ∧ leastOf c < leastOf d)) := by
  have hraster := componentsOf_pairwise (hotCells_pairwise map) (hotCells_length_le_600 hmap)
  refine (sortBy_pairwise (before := fun a b : List Nat => decide (b.length < a.length)) ?_ ?_ hraster).imp ?_
  · intro a b h; simp at *; omega
  · intro a b c h h'; simp at *; omega
  · rintro c d (h | ⟨h, hfirst⟩)
    · exact .inl (by simpa using h)
    · have hle : d.length ≤ c.length := by simpa using h
      exact hle.lt_or_eq.imp id fun heq => ⟨heq, hfirst⟩

end

end Sys2Proof.Machine
end

section
/-! SUPPORT. The association of tracks and candidates (R85, R86): the eligible pairs in their order, and what the greedy
choice takes of them. -/

namespace Sys2Proof.Machine

/-! ### The greedy choice (R86) -/

section
variable {ps : List (Nat × Nat × Nat)} {matched : List (Nat × Nat)} {i j i' j' d : Nat}

/-- A pair is passed over when its track or its candidate has been matched. -/
theorem any_matched_iff : (matched.any fun m => m.1 == i || m.2 == j) = true ↔
    ∃ i' j', (i', j') ∈ matched ∧ (i' = i ∨ j' = j) := by simp

theorem mem_takePairs_of_matched (h : (i, j) ∈ matched) : (i, j) ∈ takePairs ps matched := by
  fun_induction takePairs ps matched with
  | case1 matched => exact h
  | case2 x y d rest matched htaken ih => exact ih h
  | case3 x y d rest matched hnew ih => exact ih (List.mem_append_left _ h)

theorem mem_takePairs (h : (i, j) ∈ takePairs ps matched) : (i, j) ∈ matched ∨ ∃ d, (i, j, d) ∈ ps := by
  fun_induction takePairs ps matched with
  | case1 matched => exact .inl h
  | case2 x y d rest matched htaken ih =>
    exact (ih h).imp_right fun ⟨d', hd⟩ => ⟨d', List.mem_cons_of_mem _ hd⟩
  | case3 x y d rest matched hnew ih =>
    rcases ih h with h | ⟨d', hd⟩
    · rcases List.mem_append.1 h with h | h
      · exact .inl h
      · obtain ⟨rfl, rfl⟩ := Prod.mk.inj (List.mem_singleton.1 h)
        exact .inr ⟨d, List.mem_cons_self ..⟩
    · exact .inr ⟨d', List.mem_cons_of_mem _ hd⟩

/-- No track and no candidate is matched twice. -/
theorem takePairs_disjoint
    (h : ∀ i j i' j', (i, j) ∈ matched → (i', j') ∈ matched → (i = i' ↔ j = j'))
    (hm : (i, j) ∈ takePairs ps matched) (hm' : (i', j') ∈ takePairs ps matched) : i = i' ↔ j = j' := by
  fun_induction takePairs ps matched with
  | case1 matched => exact h _ _ _ _ hm hm'
  | case2 x y d rest matched htaken ih => exact ih h hm hm'
  | case3 x y d rest matched hnew ih =>
    have hfree : ∀ a b, (a, b) ∈ matched → a ≠ x ∧ b ≠ y := fun a b hab =>
      not_or.1 fun hor => hnew (any_matched_iff.2 ⟨a, b, hab, hor⟩)
    refine ih (fun a b a' b' hab hab' => ?_) hm hm'
    simp only [List.mem_append, List.mem_singleton, Prod.mk.injEq] at hab hab'
    rcases hab with hab | ⟨rfl, rfl⟩ <;> rcases hab' with hab' | ⟨rfl, rfl⟩
    · exact h a b a' b' hab hab'
    · exact iff_of_false (hfree a b hab).1 (hfree a b hab).2
    · exact iff_of_false (hfree a' b' hab').1.symm (hfree a' b' hab').2.symm
    · exact iff_of_true rfl rfl

/-- A pair that is not taken stands behind a taken one of its track or its candidate. -/
theorem takePairs_greedy {r : Nat × Nat × Nat → Nat × Nat × Nat → Prop} {p : Nat × Nat × Nat → Prop}
    (hsorted : ps.Pairwise r) (hp : ∀ x ∈ ps, p x)
    (hmatched : ∀ a b, (a, b) ∈ matched → ∃ e, p (a, b, e) ∧ ∀ x ∈ ps, r (a, b, e) x) (h : (i, j, d) ∈ ps) :
    (i, j) ∈ takePairs ps matched ∨
      ∃ i' j' d', (i', j') ∈ takePairs ps matched ∧ p (i', j', d') ∧ (i' = i ∨ j' = j) ∧ r (i', j', d') (i, j, d) := by
  fun_induction takePairs ps matched with
  | case1 matched => cases h
  | case2 x y e rest matched htaken ih =>
    obtain ⟨-, hrest⟩ := List.pairwise_cons.1 hsorted
    rcases List.mem_cons.1 h with h | h
    · obtain ⟨rfl, rfl, rfl⟩ : i = x ∧ j = y ∧ d = e := by simpa using h
      obtain ⟨a, b, hab, hshare⟩ := any_matched_iff.1 htaken
      obtain ⟨e', hpe, hbefore⟩ := hmatched a b hab
      exact .inr ⟨a, b, e', mem_takePairs_of_matched hab, hpe, hshare, hbefore _ (List.mem_cons_self ..)⟩
    · refine ih hrest (fun z hz => hp z (List.mem_cons_of_mem _ hz)) (fun a b hab => ?_) h
      obtain ⟨e', hpe, hbefore⟩ := hmatched a b hab
      exact ⟨e', hpe, fun z hz => hbefore z (List.mem_cons_of_mem _ hz)⟩
  | case3 x y e rest matched hnew ih =>
    obtain ⟨hfirst, hrest⟩ := List.pairwise_cons.1 hsorted
    rcases List.mem_cons.1 h with h | h
    · obtain ⟨rfl, rfl, rfl⟩ : i = x ∧ j = y ∧ d = e := by simpa using h
      exact .inl (mem_takePairs_of_matched (List.mem_append_right _ (List.mem_cons_self ..)))
    · refine ih hrest (fun z hz => hp z (List.mem_cons_of_mem _ hz)) (fun a b hab => ?_) h
      rcases List.mem_append.1 hab with hab | hab
      · obtain ⟨e', hpe, hbefore⟩ := hmatched a b hab
        exact ⟨e', hpe, fun z hz => hbefore z (List.mem_cons_of_mem _ hz)⟩
      · obtain ⟨rfl, rfl⟩ := Prod.mk.inj (List.mem_singleton.1 hab)
        exact ⟨e, hp _ (List.mem_cons_self ..), hfirst⟩

end

/-! ### Eligible pairs (R85) -/

/-- The distance of the pair of a slot and a candidate index, none when it is not eligible. -/
def distanceAt (gate : Nat) (tracks : List Track) (cands : List Candidate) (i j : Nat) : Option Nat :=
  tracks[i]?.bind fun t => cands[j]?.bind fun c => pairDistance gate t c

/-- Pairs by slot, then by index. -/
def SlotOrder (p q : Nat × Nat × Nat) : Prop := p.1 < q.1 ∨ (p.1 = q.1 ∧ p.2.1 < q.2.1)

variable (gate : Nat) (tracks : List Track) (cands : List Candidate)

theorem mem_eligiblePairs {i j d : Nat} :
    (i, j, d) ∈ eligiblePairs gate tracks cands ↔ distanceAt gate tracks cands i j = some d := by
  simp only [eligiblePairs, distanceAt, List.mem_flatMap, List.mem_filterMap, Prod.exists,
    List.mem_zipIdx_iff_getElem?, Option.map_eq_some_iff, Prod.mk.injEq, Option.bind_eq_some_iff]
  constructor
  · rintro ⟨t, i', ht, c, j', hc, d', hd, rfl, rfl, rfl⟩
    exact ⟨t, ht, c, hc, hd⟩
  · rintro ⟨t, ht, c, hc, hd⟩
    exact ⟨t, i, ht, c, j, hc, d, hd, rfl, rfl, rfl⟩

theorem eligiblePairs_pairwise : (eligiblePairs gate tracks cands).Pairwise SlotOrder := by
  refine List.pairwise_flatMap.2 ⟨fun (t, i) _ => ?_, (zipIdx_pairwise tracks).imp fun {a b} hi x hx y hy => ?_⟩
  · refine List.Pairwise.filterMap _ (fun p q hlt x hx y hy => ?_) (zipIdx_pairwise cands)
    obtain ⟨d, -, rfl⟩ := Option.map_eq_some_iff.1 hx
    obtain ⟨e, -, rfl⟩ := Option.map_eq_some_iff.1 hy
    exact .inr ⟨rfl, hlt⟩
  · obtain ⟨p, -, hp⟩ := List.mem_filterMap.1 hx
    obtain ⟨q, -, hq⟩ := List.mem_filterMap.1 hy
    obtain ⟨d, -, rfl⟩ := Option.map_eq_some_iff.1 hp
    obtain ⟨e, -, rfl⟩ := Option.map_eq_some_iff.1 hq
    exact .inl hi

/-- Pairs by distance, then by slot, then by index (R86). -/
def PairOrder (p q : Nat × Nat × Nat) : Prop := p.2.2 < q.2.2 ∨ (p.2.2 = q.2.2 ∧ SlotOrder p q)

/-- The eligible pairs in the order they are taken in. -/
theorem sortedPairs_pairwise :
    (sortBy (fun a b => decide (a.2.2 < b.2.2)) (eligiblePairs gate tracks cands)).Pairwise PairOrder := by
  refine (sortBy_pairwise (before := fun a b : Nat × Nat × Nat => decide (a.2.2 < b.2.2)) ?_ ?_
    (eligiblePairs_pairwise gate tracks cands)).imp ?_
  · intro a b h; simp at *; omega
  · intro a b c h h'; simp at *; omega
  · rintro p q (h | ⟨h, hslot⟩)
    · exact .inl (by simpa using h)
    · have hle : p.2.2 ≤ q.2.2 := by simpa using h
      exact hle.lt_or_eq.imp id fun heq => ⟨heq, hslot⟩

theorem mem_sortedPairs {i j d : Nat} :
    (i, j, d) ∈ sortBy (fun a b => decide (a.2.2 < b.2.2)) (eligiblePairs gate tracks cands) ↔
      distanceAt gate tracks cands i j = some d :=
  (sortBy_perm _ _).mem_iff.trans (mem_eligiblePairs gate tracks cands)

/-! ### Matches (R86) -/

section
variable {gate tracks cands} {i j i' j' d : Nat}

theorem distanceAt_of_match (h : (i, j) ∈ matchPairs gate tracks cands) :
    distanceAt gate tracks cands i j ≠ none := by
  rcases mem_takePairs h with h | ⟨d, hd⟩
  · cases h
  · rw [(mem_sortedPairs gate tracks cands).1 hd]
    exact Option.some_ne_none d

theorem matchPairs_disjoint (h : (i, j) ∈ matchPairs gate tracks cands)
    (h' : (i', j') ∈ matchPairs gate tracks cands) : i = i' ↔ j = j' :=
  takePairs_disjoint (fun _ _ _ _ hm => by cases hm) h h'

theorem matchPairs_greedy (h : distanceAt gate tracks cands i j = some d) :
    (i, j) ∈ matchPairs gate tracks cands ∨
      ∃ i' j' d', (i', j') ∈ matchPairs gate tracks cands ∧ distanceAt gate tracks cands i' j' = some d' ∧
        (i' = i ∨ j' = j) ∧ PairOrder (i', j', d') (i, j, d) :=
  takePairs_greedy (p := fun x => distanceAt gate tracks cands x.1 x.2.1 = some x.2.2)
    (sortedPairs_pairwise gate tracks cands) (fun _ => (mem_sortedPairs gate tracks cands).1)
    (fun _ _ hm => by cases hm) ((mem_sortedPairs gate tracks cands).2 h)

end

/-- The first entry of a slot is found alike by `lookup`. -/
theorem lookup_eq_find? (l : List (Nat × Nat)) (i : Nat) : l.lookup i = (l.find? fun m => m.1 == i).map (·.2) := by
  induction l with
  | nil => rfl
  | cons m rest ih =>
    rw [List.lookup_cons, List.find?_cons, Bool.beq_comm]
    cases m.1 == i
    · exact ih
    · rfl

end Sys2Proof.Machine
end

section
/-! SUPPORT. One track and the six slots (R84, R87 to R96): what each update of a track gives, and what it keeps of the
soundness of the tracks. -/

namespace Sys2Proof.Machine

/-! ### Updates (R87, R88) -/

theorem newVelocity_eq (old motion : Int) :
    newVelocity old motion = max (-32) (min 31 ((old + motion).fdiv 2)) := by
  rw [newVelocity, clampInt, Int.fdiv_eq_ediv_of_nonneg _ (by decide)]

theorem clampNat_le (hi : Nat) (x : Int) : clampNat hi x ≤ hi := by
  simp only [clampNat, clampInt]; omega

theorem clampNat_mono (hi : Nat) {x y : Int} (h : x ≤ y) : clampNat hi x ≤ clampNat hi y := by
  simp only [clampNat, clampInt]; omega

theorem clampNat_cast (hi : Nat) (x : Int) : (clampNat hi x : Int) = max 0 (min (hi : Int) x) := by
  simp only [clampNat, clampInt]; omega

/-- A missed track's box keeps its sides in order, and inside the map (R88). -/
theorem Track.miss_box_x (x : Track) (h : x.box.x0 ≤ x.box.x1) : x.miss.box.x0 ≤ x.miss.box.x1 ∧ x.miss.box.x1 ≤ 29 :=
  ⟨clampNat_mono 29 (by omega), clampNat_le 29 _⟩

theorem Track.miss_box_y (x : Track) (h : x.box.y0 ≤ x.box.y1) : x.miss.box.y0 ≤ x.miss.box.y1 ∧ x.miss.box.y1 ≤ 19 :=
  ⟨clampNat_mono 19 (by omega), clampNat_le 19 _⟩

/-! ### The transition (R90 to R92) -/

/-- The state after the transition of a track. -/
def Track.nextState (f : TrackerGlare) (x : Track) : TrackState :=
  match x.state with
  | .free => .free
  | .tentative =>
    if x.history.getLsbD 0 then (if f.confirmHits ≤ x.hits then .confirmed else .tentative)
    else if f.tentativeMiss ≤ x.misses then .free else .tentative
  | .confirmed => if x.history.getLsbD 0 then .confirmed else if f.coastLimit ≤ x.misses then .releasing else .coasting
  | .coasting => if x.history.getLsbD 0 then .confirmed else if f.coastLimit ≤ x.misses then .releasing else .coasting
  | .releasing => if x.history.getLsbD 0 then .confirmed else .releasing

/-- A transition changes the state alone, or frees the slot. -/
theorem Track.transition_eq (f : TrackerGlare) (x : Track) :
    x.transition f = { x with state := x.nextState f } ∨ (x.nextState f = .free ∧ x.transition f = Track.freed) := by
  obtain ⟨state, id, qx, qy, vx, vy, box, history, misses, attenuation, target⟩ := x
  cases state <;> simp only [Track.transition, Track.nextState]
  case free => exact .inl trivial
  case tentative =>
    split
    · split <;> exact .inl rfl
    · split
      · exact .inr ⟨rfl, rfl⟩
      · exact .inl rfl
  case confirmed =>
    split
    · exact .inl rfl
    · split <;> exact .inl rfl
  case coasting =>
    split
    · exact .inl rfl
    · split <;> exact .inl rfl
  case releasing => split <;> exact .inl rfl

theorem Track.transition_state (f : TrackerGlare) (x : Track) : (x.transition f).state = x.nextState f := by
  rcases x.transition_eq f with h | ⟨hfree, h⟩
  · rw [h]
  · rw [h, hfree]; rfl

theorem Track.transition_of_not_free (f : TrackerGlare) (x : Track) (h : x.nextState f ≠ .free) :
    x.transition f = { x with state := x.nextState f } :=
  (x.transition_eq f).resolve_right fun hfreed => h hfreed.1

/-- Only a FREE or a TENTATIVE track is FREE or TENTATIVE after a transition. -/
theorem Track.state_of_nextState {f : TrackerGlare} {x : Track}
    (h : x.nextState f = .free ∨ x.nextState f = .tentative) : x.state = .free ∨ x.state = .tentative := by
  unfold Track.nextState at h
  split at h
  case h_1 hs => exact .inl hs
  case h_2 hs => exact .inr hs
  case h_3 | h_4 | h_5 => grind

theorem Track.nextState_free {f : TrackerGlare} {x : Track} (h : x.state = .free) : x.nextState f = .free := by
  simp only [Track.nextState, h]

/-! ### The ramp (R92 to R94) -/

theorem Track.targetFor_eq (f : TrackerGlare) (x : Track) :
    x.targetFor f = if x.state = .confirmed ∨ x.state = .coasting then f.target else 256 := by
  unfold Track.targetFor
  split <;> rename_i h <;> simp [h]

theorem Track.ramp_free (f : TrackerGlare) {x : Track} (h : x.state = .free) : x.ramp f = x := by
  simp only [Track.ramp, h]

theorem Track.ramp_of_not_free (f : TrackerGlare) {x : Track} (h : x.state ≠ .free) :
    x.ramp f =
      if x.state = .releasing ∧ rampToward f x.attenuation (x.targetFor f) = 256 then Track.freed
      else { x with target := x.targetFor f, attenuation := rampToward f x.attenuation (x.targetFor f) } := by
  cases hs : x.state
  case free => exact absurd hs h
  all_goals simp only [Track.ramp, hs]

/-! ### The zone of a track (R96) -/

theorem zoneOf_bounds (margin : Nat) {x : Track} (hx : x.box.x0 ≤ x.box.x1) (hx1 : x.box.x1 ≤ 29)
    (hy : x.box.y0 ≤ x.box.y1) (hy1 : x.box.y1 ≤ 19) :
    (zoneOf margin x).x0 ≤ (zoneOf margin x).x1 ∧ (zoneOf margin x).x1 ≤ 1919 ∧
      (zoneOf margin x).y0 ≤ (zoneOf margin x).y1 ∧ (zoneOf margin x).y1 ≤ 1279 := by
  simp only [zoneOf]; omega

/-! ### New tracks (R84, R89) -/

theorem freeSlot_eq_find? (tracks : Vector Track 6) :
    freeSlot tracks = Fin.find? fun i => tracks[i.val].state == .free := Fin.find?_eq_find?_finRange.symm

theorem freeSlot_eq_none {tracks : Vector Track 6} (h : ∀ j : Fin 6, tracks[j.val].state ≠ .free) :
    freeSlot tracks = none := by
  rw [freeSlot_eq_find?, Fin.find?_eq_none_iff]
  exact fun j => beq_false_of_ne (h j)

/-- The lowest FREE slot is taken (R89). -/
theorem freeSlot_eq_some {tracks : Vector Track 6} {i : Fin 6} :
    freeSlot tracks = some i ↔ tracks[i.val].state = .free ∧ ∀ j, j < i → tracks[j.val].state ≠ .free := by
  rw [freeSlot_eq_find?, Fin.find?_eq_some_iff]
  simp only [beq_iff_eq, beq_eq_false_iff_ne]

theorem mem_heldIds {tracks : Vector Track 6} {id : Byte} :
    id ∈ heldIds tracks ↔ ∃ j : Fin 6, tracks[j.val].state ≠ .free ∧ tracks[j.val].id = id := by
  simp only [heldIds, List.mem_map, List.mem_filter, Vector.mem_toList_iff, Vector.mem_iff_getElem, bne_iff_ne]
  constructor
  · rintro ⟨_, ⟨⟨i, hi, rfl⟩, hfree⟩, hid⟩
    exact ⟨⟨i, hi⟩, hfree, hid⟩
  · rintro ⟨j, hfree, hid⟩
    exact ⟨_, ⟨⟨j.val, j.isLt, rfl⟩, hfree⟩, hid⟩

/-- With a FREE slot, fewer than six IDs are held. -/
theorem heldIds_length_lt {tracks : Vector Track 6} {i : Fin 6} (h : tracks[i.val].state = .free) :
    (heldIds tracks).length < 6 := by
  rw [heldIds, List.length_map]
  refine (List.length_filter_lt_length_iff_exists.2 ⟨tracks[i.val], ?_, by simp [h]⟩).trans_eq (by simp)
  exact Vector.mem_toList_iff.2 (Vector.getElem_mem i.isLt)

/-- The ID picked is the first from the counter upward that is not held, or the last one tried. -/
theorem pickId_spec (held : List Byte) (counter : Byte) (fuel : Nat) :
    ∃ n ≤ fuel, pickId held counter fuel = counter + BitVec.ofNat 8 n ∧
      (∀ m < n, counter + BitVec.ofNat 8 m ∈ held) ∧ (n < fuel → counter + BitVec.ofNat 8 n ∉ held) := by
  induction fuel generalizing counter with
  | zero => exact ⟨0, le_rfl, by simp [pickId], by simp, by simp⟩
  | succ fuel ih =>
    by_cases hc : counter ∈ held
    · obtain ⟨n, hn, hpick, hbelow, hnot⟩ := ih (counter + 1)
      have hshift : ∀ m, counter + 1 + BitVec.ofNat 8 m = counter + BitVec.ofNat 8 (m + 1) := fun m => by
        rw [BitVec.add_assoc, BitVec.ofNat_add, BitVec.add_comm (BitVec.ofNat 8 m)]
        rfl
      refine ⟨n + 1, by omega, ?_, fun m hm => ?_, fun hlt => ?_⟩
      · rw [pickId, if_pos (List.contains_iff_mem.2 hc), hpick, hshift]
      · cases m with
        | zero => simpa using hc
        | succ m => rw [← hshift]; exact hbelow m (by omega)
      · rw [← hshift]; exact hnot (by omega)
    · refine ⟨0, by omega, ?_, by simp, fun _ => by simpa using hc⟩
      rw [pickId, if_neg (fun h => hc (List.contains_iff_mem.1 h))]
      simp

/-- Six neighbouring IDs are different. -/
theorem nodup_sixIds (counter : Byte) : ((List.range 6).map fun m => counter + BitVec.ofNat 8 m).Nodup := by
  refine List.Nodup.map_on (fun x hx y hy h => ?_) List.nodup_range
  rw [List.mem_range] at hx hy
  have hxy := congrArg BitVec.toNat ((BitVec.add_right_inj counter).1 h)
  simp only [BitVec.toNat_ofNat] at hxy
  omega

/-- A new track's ID is the first from the counter upward that no other track holds (R84). -/
theorem pickId_of_free {tracks : Vector Track 6} {i : Fin 6} (h : tracks[i.val].state = .free) (counter : Byte) :
    ∃ n < 6, pickId (heldIds tracks) counter 6 = counter + BitVec.ofNat 8 n ∧
      counter + BitVec.ofNat 8 n ∉ heldIds tracks ∧ ∀ m < n, counter + BitVec.ofNat 8 m ∈ heldIds tracks := by
  obtain ⟨n, hn, hpick, hbelow, hnot⟩ := pickId_spec (heldIds tracks) counter 6
  rcases hn.lt_or_eq with hlt | rfl
  · exact ⟨n, hlt, hpick, hnot hlt, hbelow⟩
  · have hsub : (List.range 6).map (fun m => counter + BitVec.ofNat 8 m) ⊆ heldIds tracks := by
      intro id hid
      obtain ⟨m, hm, rfl⟩ := List.mem_map.1 hid
      exact hbelow m (List.mem_range.1 hm)
    have hle := ((nodup_sixIds counter).subperm hsub).length_le
    have hlt := heldIds_length_lt h
    rw [List.length_map, List.length_range] at hle
    omega

section
variable (g : Glare) {overload : Bool} {c : Candidate}

theorem Glare.createTrack_oversize (h : c.oversize = true) : g.createTrack overload c = g := if_pos h

theorem Glare.createTrack_dropped (hc : c.oversize = false)
    (h : overload = true ∨ ∀ j : Fin 6, g.tracks[j.val].state ≠ .free) :
    g.createTrack overload c = { g with droppedCandidates := min (g.droppedCandidates + 1) 255 } := by
  unfold Glare.createTrack
  rw [if_neg (by simp [hc])]
  split
  next => rfl
  next i hi =>
    have hfree := (freeSlot_eq_some.1 hi).1
    exact if_pos (h.resolve_right fun hnone => hnone i hfree)

theorem Glare.createTrack_created (hc : c.oversize = false) (ho : overload = false) {i : Fin 6}
    (hi : freeSlot g.tracks = some i) :
    g.createTrack overload c =
      { g with
        tracks := g.tracks.set i.val (Track.created (pickId (heldIds g.tracks) g.idCounter 6) c) i.isLt
        idCounter := pickId (heldIds g.tracks) g.idCounter 6 + 1 } := by
  unfold Glare.createTrack
  rw [if_neg (by simp [hc]), hi]
  simp [ho]

end

end Sys2Proof.Machine
end

section
/-! SUPPORT. One completion of a tracker (R75 to R96): its parts written out, and the soundness it keeps. -/

namespace Sys2Proof.Machine

/-! ### The parts of a completion -/

theorem updateTrack_eq (pairs : List (Nat × Nat)) (cands : List Candidate) (i : Nat) (x : Track) :
    updateTrack pairs cands i x =
      if x.state = .free then x
      else
        match (pairs.lookup i).bind fun j => cands[j]? with
        | some c => x.hit c
        | none => x.miss := by
  rw [updateTrack, lookup_eq_find?]
  cases pairs.find? fun m => m.1 == i <;> rfl

theorem Track.dims_eq (x : Track) :
    x.dims = (decide (x.state = .confirmed ∨ x.state = .coasting ∨ x.state = .releasing) &&
      decide (x.attenuation < 256)) := by
  cases h : x.state <;> simp [Track.dims, h]

/-- A completion with tracking stopped (R78, R93 to R96). -/
theorem Glare.complete_stopped (g : Glare) (f : TrackerGlare) (overload : Bool) (map : List Bool) :
    g.complete f false overload map =
      ({ g with candidates := [], tracks := g.tracks.map fun x => x.letGo.ramp f, running := false } : Glare).publish
        f.margin := by
  simp only [Glare.complete, Bool.false_eq_true, if_false, Vector.map_map, Function.comp_def]

/-- A completion with tracking running (R79 to R96). -/
theorem Glare.complete_running (g : Glare) (f : TrackerGlare) (overload : Bool) (map : List Bool) :
    g.complete f true overload map =
      ({ (g.formCandidates f.maxBlob map).associate f.gate overload with
          tracks := ((g.formCandidates f.maxBlob map).associate f.gate overload).tracks.map fun x =>
            (x.transition f).ramp f
          running := true } : Glare).publish f.margin := by
  simp only [Glare.complete, if_true, Vector.map_map, Function.comp_def]

/-! ### What a completion keeps -/

/-- The attenuation of a track lies in 16..256, and is 256 for a FREE or TENTATIVE one (R94). -/
def Track.sound (x : Track) : Prop :=
  16 ≤ x.attenuation ∧ x.attenuation ≤ 256 ∧ (x.state = .free ∨ x.state = .tentative → x.attenuation = 256)

/-- The IDs of the tracks that are not FREE are distinct (R84). -/
def distinctIds (tracks : Vector Track 6) : Prop :=
  ∀ i j : Fin 6, tracks[i.val].state ≠ .free → tracks[j.val].state ≠ .free →
    tracks[i.val].id = tracks[j.val].id → i = j

/-- The tracks of a tracker are sound. -/
def tracksSound (tracks : Vector Track 6) : Prop := (∀ i : Fin 6, tracks[i.val].sound) ∧ distinctIds tracks

/-- All of a tracker's soundness but that of its zones, which are published last. -/
structure Glare.steady (g : Glare) : Prop where
  tracks : tracksSound g.tracks
  candidates : g.candidates.length ≤ 8
  droppedComponents : g.droppedComponents ≤ 255
  droppedCandidates : g.droppedCandidates ≤ 255

theorem Glare.sound_iff (g : Glare) :
    g.sound ↔ g.steady ∧ g.zones.length ≤ 6 ∧ ∀ z, z ∈ g.zones → 16 ≤ z.attenuation ∧ z.attenuation ≤ 255 := by
  constructor
  · rintro ⟨htracks, hids, hcands, hcomps, hdropped, hzones⟩
    exact ⟨⟨⟨htracks, hids⟩, hcands, hcomps, hdropped⟩, hzones⟩
  · rintro ⟨⟨⟨htracks, hids⟩, hcands, hcomps, hdropped⟩, hzones⟩
    exact ⟨htracks, hids, hcands, hcomps, hdropped, hzones⟩

theorem Track.freed_sound : Track.freed.sound := ⟨by decide, le_rfl, fun _ => rfl⟩

/-- A track keeps its place among the IDs when it keeps its ID or is freed. -/
def Track.keepsId (x x' : Track) : Prop := x'.state ≠ .free → x.state ≠ .free ∧ x'.id = x.id

/-- Updates slot by slot keep the tracks sound when each keeps its track sound and its ID. -/
theorem tracksSound.update {tracks tracks' : Vector Track 6} (h : tracksSound tracks)
    (hsound : ∀ i : Fin 6, tracks[i.val].sound → tracks'[i.val].sound)
    (hid : ∀ i : Fin 6, tracks[i.val].keepsId tracks'[i.val]) : tracksSound tracks' := by
  refine ⟨fun i => hsound i (h.1 i), fun i j hi hj he => ?_⟩
  obtain ⟨hi, hidi⟩ := hid i hi
  obtain ⟨hj, hidj⟩ := hid j hj
  exact h.2 i j hi hj (hidi.symm.trans (he.trans hidj))

theorem tracksSound.map {tracks : Vector Track 6} (h : tracksSound tracks) {f : Track → Track}
    (hsound : ∀ x : Track, x.sound → (f x).sound) (hid : ∀ x : Track, x.keepsId (f x)) :
    tracksSound (tracks.map f) :=
  h.update (fun i hx => by rw [Vector.getElem_map]; exact hsound _ hx)
    (fun i => by rw [Vector.getElem_map]; exact hid _)

/-! Updates -/

/-- Hits and misses change neither state, ID nor attenuation. -/
theorem updateTrack_fields (pairs : List (Nat × Nat)) (cands : List Candidate) (i : Nat) (x : Track) :
    (updateTrack pairs cands i x).state = x.state ∧ (updateTrack pairs cands i x).id = x.id ∧
      (updateTrack pairs cands i x).attenuation = x.attenuation := by
  rw [updateTrack_eq]
  split
  · exact ⟨rfl, rfl, rfl⟩
  · split <;> exact ⟨rfl, rfl, rfl⟩

theorem updateTrack_tracksSound {tracks : Vector Track 6} (h : tracksSound tracks) (pairs : List (Nat × Nat))
    (cands : List Candidate) : tracksSound (tracks.mapIdx fun i x => updateTrack pairs cands i x) := by
  refine h.update (fun i hx => ?_) (fun i => ?_) <;> rw [Vector.getElem_mapIdx]
  · obtain ⟨hstate, -, hatt⟩ := updateTrack_fields pairs cands i tracks[i.val]
    rwa [Track.sound, hstate, hatt]
  · obtain ⟨hstate, hid, -⟩ := updateTrack_fields pairs cands i tracks[i.val]
    exact fun hfree => ⟨hstate ▸ hfree, hid⟩

/-- A new track in a FREE slot, with an ID that no track holds. -/
theorem tracksSound.create {tracks : Vector Track 6} (h : tracksSound tracks) (i : Fin 6) {id : Byte}
    (hid : id ∉ heldIds tracks) (c : Candidate) : tracksSound (tracks.set i.val (Track.created id c) i.isLt) := by
  have hother : ∀ j : Fin 6, tracks[j.val].state ≠ .free → tracks[j.val].id ≠ id := fun j hj he =>
    hid (mem_heldIds.2 ⟨j, hj, he⟩)
  have hself : (tracks.set i.val (Track.created id c) i.isLt)[i.val] = Track.created id c := Vector.getElem_set_self _
  have hset : ∀ j : Fin 6, j ≠ i → (tracks.set i.val (Track.created id c) i.isLt)[j.val] = tracks[j.val] :=
    fun j hj => Vector.getElem_set_ne _ _ fun e => hj (Fin.ext e.symm)
  refine ⟨fun j => ?_, fun j k hj hk he => ?_⟩
  · by_cases hji : j = i
    · rw [hji, hself]
      exact ⟨(by decide : 16 ≤ 256), le_rfl, fun _ => rfl⟩
    · rw [hset j hji]
      exact h.1 j
  · by_cases hji : j = i <;> by_cases hki : k = i
    · exact hji.trans hki.symm
    · rw [hset k hki] at hk he
      rw [hji, hself] at he
      exact absurd he.symm (hother k hk)
    · rw [hset j hji] at hj he
      rw [hki, hself] at he
      exact absurd he (hother j hj)
    · rw [hset j hji] at hj he
      rw [hset k hki] at hk he
      exact h.2 j k hj hk he

theorem Glare.createTrack_steady {g : Glare} (h : g.steady) (overload : Bool) (c : Candidate) :
    (g.createTrack overload c).steady := by
  have hdrop : ({ g with droppedCandidates := min (g.droppedCandidates + 1) 255 } : Glare).steady :=
    ⟨h.tracks, h.candidates, h.droppedComponents, Nat.min_le_right ..⟩
  cases hc : c.oversize
  · by_cases hblocked : overload = true ∨ ∀ j : Fin 6, g.tracks[j.val].state ≠ .free
    · rwa [g.createTrack_dropped hc hblocked]
    · obtain ⟨ho, hsome⟩ := not_or.1 hblocked
      cases hi : freeSlot g.tracks with
      | none =>
        rw [freeSlot_eq_find?, Fin.find?_eq_none_iff] at hi
        exact absurd (fun j => by simpa using hi j) hsome
      | some i =>
        obtain ⟨n, -, hpick, hnot, -⟩ := pickId_of_free (freeSlot_eq_some.1 hi).1 g.idCounter
        rw [g.createTrack_created hc (by simpa using ho) hi, hpick]
        exact ⟨h.tracks.create i hnot c, h.candidates, h.droppedComponents, h.droppedCandidates⟩
  · rwa [g.createTrack_oversize hc]

theorem Glare.createTracks_steady (overload : Bool) (cands : List Candidate) {g : Glare} (h : g.steady) :
    (cands.foldl (Glare.createTrack overload) g).steady := by
  induction cands generalizing g with
  | nil => exact h
  | cons c rest ih => exact ih (Glare.createTrack_steady h overload c)

theorem Glare.formCandidates_steady {g : Glare} (h : g.steady) (maxBlob : Nat) (map : List Bool) :
    (g.formCandidates maxBlob map).steady :=
  ⟨h.tracks, by simp [Glare.formCandidates, Config.candidateLimit], Nat.min_le_left .., h.droppedCandidates⟩

theorem Glare.associate_steady {g : Glare} (h : g.steady) (gate : Nat) (overload : Bool) :
    (g.associate gate overload).steady :=
  Glare.createTracks_steady _ _
    ⟨updateTrack_tracksSound h.tracks _ _, h.candidates, h.droppedComponents, h.droppedCandidates⟩

/-! Transitions and ramps -/

theorem Track.transition_sound (f : TrackerGlare) {x : Track} (h : x.sound) : (x.transition f).sound := by
  rcases x.transition_eq f with he | ⟨-, he⟩ <;> rw [he]
  · obtain ⟨hlow, hhigh, hfull⟩ := h
    exact ⟨hlow, hhigh, fun hs => hfull (Track.state_of_nextState hs)⟩
  · exact Track.freed_sound

theorem Track.transition_keepsId (f : TrackerGlare) (x : Track) : x.keepsId (x.transition f) := by
  intro hfree
  rw [Track.transition_state] at hfree
  refine ⟨fun hs => hfree (Track.nextState_free hs), ?_⟩
  rw [x.transition_of_not_free f hfree]

theorem Track.letGo_sound {x : Track} (h : x.sound) : x.letGo.sound := by
  obtain ⟨hlow, hhigh, hfull⟩ := h
  unfold Track.letGo
  split
  · exact Track.freed_sound
  · exact ⟨hlow, hhigh, by rintro (hs | hs) <;> cases hs⟩
  · exact ⟨hlow, hhigh, by rintro (hs | hs) <;> cases hs⟩
  · exact ⟨hlow, hhigh, hfull⟩
  · exact ⟨hlow, hhigh, hfull⟩

theorem Track.letGo_keepsId (x : Track) : x.keepsId x.letGo := by
  unfold Track.keepsId Track.letGo
  split
  · exact fun h => absurd rfl h
  · next h => exact fun _ => ⟨by simp [h], rfl⟩
  · next h => exact fun _ => ⟨by simp [h], rfl⟩
  · exact fun h => ⟨h, rfl⟩
  · exact fun h => ⟨h, rfl⟩

/-- After letting go, no track aims below 256 (R78, R93). -/
theorem Track.letGo_state (x : Track) : x.letGo.state = .free ∨ x.letGo.state = .releasing := by
  unfold Track.letGo
  split
  · exact .inl rfl
  · exact .inr rfl
  · exact .inr rfl
  · next h => exact .inl h
  · next h => exact .inr h

/-- The ramp stays between the attenuation and its target. -/
theorem rampToward_bounds (f : TrackerGlare) {a target : Nat} (ha : 16 ≤ a ∧ a ≤ 256) (ht : 16 ≤ target ∧ target ≤ 256) :
    16 ≤ rampToward f a target ∧ rampToward f a target ≤ 256 := by
  unfold rampToward
  split
  · omega
  · split <;> omega

theorem Track.ramp_sound (f : TrackerGlare) {x : Track} (h : x.sound)
    (ht : x.state = .confirmed ∨ x.state = .coasting → 16 ≤ f.target ∧ f.target ≤ 255) : (x.ramp f).sound := by
  by_cases hfree : x.state = .free
  · rwa [x.ramp_free f hfree]
  · rw [x.ramp_of_not_free f hfree]
    split
    · exact Track.freed_sound
    · obtain ⟨hlow, hhigh, hfull⟩ := h
      have htarget : 16 ≤ x.targetFor f ∧ x.targetFor f ≤ 256 := by
        rw [Track.targetFor_eq]
        split
        next hs => exact ⟨(ht hs).1, (ht hs).2.trans (by decide)⟩
        next => decide
      obtain ⟨hramp, hramp'⟩ := rampToward_bounds f ⟨hlow, hhigh⟩ htarget
      refine ⟨hramp, hramp', fun hs => ?_⟩
      have htent : x.state = .tentative := hs.resolve_left hfree
      simp [Track.targetFor, htent, hfull hs, rampToward]

theorem Track.ramp_keepsId (f : TrackerGlare) (x : Track) : x.keepsId (x.ramp f) := by
  intro h
  by_cases hfree : x.state = .free
  · exact absurd ((x.ramp_free f hfree).symm ▸ hfree) h
  · refine ⟨hfree, ?_⟩
    rw [x.ramp_of_not_free f hfree] at h ⊢
    split at h
    next => exact absurd rfl h
    next hn => rw [if_neg hn]

theorem Track.keepsId.trans {x y z : Track} (h : x.keepsId y) (h' : y.keepsId z) : x.keepsId z := fun hz =>
  have hy := h' hz
  have hx := h hy.1
  ⟨hx.1, hy.2.trans hx.2⟩

/-! The completion -/

theorem Glare.publish_sound {g : Glare} (h : g.steady) (margin : Nat) : (g.publish margin).sound := by
  have hsteady : (g.publish margin).steady :=
    ⟨h.tracks, h.candidates, h.droppedComponents, h.droppedCandidates⟩
  refine (Glare.sound_iff _).2 ⟨hsteady, ?_, fun z hz => ?_⟩
  · rw [Glare.publish, List.length_map]
    exact (List.length_filter_le ..).trans_eq (by simp)
  · obtain ⟨x, hx, rfl⟩ := List.mem_map.1 hz
    obtain ⟨hx, hdims⟩ := List.mem_filter.1 hx
    obtain ⟨i, hi, rfl⟩ := Vector.mem_iff_getElem.1 (Vector.mem_toList_iff.1 hx)
    rw [Track.dims_eq, Bool.and_eq_true, decide_eq_true_eq, decide_eq_true_eq] at hdims
    exact ⟨(h.tracks.1 ⟨i, hi⟩).1, Nat.le_of_lt_succ hdims.2⟩

/-- A completion keeps the tracker sound, while tracking aims at 16..255. -/
theorem Glare.complete_sound {g : Glare} (h : g.sound) (f : TrackerGlare) (running overload : Bool) (map : List Bool)
    (ht : running = true → 16 ≤ f.target ∧ f.target ≤ 255) : (g.complete f running overload map).sound := by
  have hsteady := ((Glare.sound_iff g).1 h).1
  cases running
  · rw [Glare.complete_stopped]
    have htracks : tracksSound (g.tracks.map fun x => x.letGo.ramp f) := by
      refine hsteady.tracks.map (fun x hx => ?_) fun x => ?_
      · refine Track.ramp_sound f (Track.letGo_sound hx) fun hs => ?_
        rcases x.letGo_state with hl | hl <;> rw [hl] at hs <;> simp at hs
      · exact x.letGo_keepsId.trans (Track.ramp_keepsId f _)
    refine Glare.publish_sound ?_ _
    exact ⟨htracks, Nat.zero_le 8, hsteady.droppedComponents, hsteady.droppedCandidates⟩
  · rw [Glare.complete_running]
    have hassoc := Glare.associate_steady (Glare.formCandidates_steady hsteady f.maxBlob map) f.gate overload
    have htracks := hassoc.tracks.map (f := fun x => (x.transition f).ramp f)
      (fun x hx => Track.ramp_sound f (Track.transition_sound f hx) fun _ => ht rfl)
      (fun x => (x.transition_keepsId f).trans (Track.ramp_keepsId f _))
    refine Glare.publish_sound ?_ _
    exact ⟨htracks, hassoc.candidates, hassoc.droppedComponents, hassoc.droppedCandidates⟩

end Sys2Proof.Machine
end

section
/-! SUPPORT. What leaves the trackers alone: the state updates, the reports, the reading of tables, the self-test
sequencer and the steps of a frame up to its completion. -/

namespace Sys2Proof.Machine

/-- The tracker of a side. -/
def State.tracker (s : State) (side : Side) : Glare := (s.unit side).glare

variable (s : State) (side x : Side)

/-! ### State updates and reports -/

theorem State.modUnit_tracker {f : SideUnit → SideUnit} (h : (f (s.unit side)).glare = (s.unit side).glare) :
    (s.modUnit side f).tracker x = s.tracker x := s.modUnit_keeps side x (·.glare) h

@[simp] theorem State.modIngest_tracker (f : Ingest → Ingest) : (s.modIngest side f).tracker x = s.tracker x :=
  s.modUnit_tracker side x rfl

@[simp] theorem State.setPass_tracker (p : Pass) : (s.setPass side p).tracker x = s.tracker x :=
  s.modUnit_tracker side x rfl

@[simp] theorem State.modLight_tracker (f : Light → Light) : (s.modLight side f).tracker x = s.tracker x :=
  s.modUnit_tracker side x rfl

@[simp] theorem State.modComposer_tracker (f : Composer → Composer) :
    (s.modComposer side f).tracker x = s.tracker x := s.modUnit_tracker side x rfl

@[simp] theorem State.modSequencer_tracker (f : Sequencer → Sequencer) :
    (s.modSequencer side f).tracker x = s.tracker x := s.modUnit_tracker side x rfl

@[simp] theorem State.modRun_tracker (f : Run → Run) : (s.modRun side f).tracker x = s.tracker x :=
  s.modUnit_tracker side x rfl

@[simp] theorem State.modBuffer_tracker (f : SelfTestBuffer → SelfTestBuffer) :
    (s.modBuffer side f).tracker x = s.tracker x := s.modUnit_tracker side x rfl

@[simp] theorem State.modChannel_tracker (f : Link → Link) : (s.modChannel side f).tracker x = s.tracker x :=
  s.modUnit_tracker side x rfl

@[simp] theorem State.modViews_tracker (f : ViewUnit → ViewUnit) : (s.modViews side f).tracker x = s.tracker x :=
  s.modUnit_tracker side x rfl

@[simp] theorem State.modRings_tracker (f : Ring → Ring) : (s.modRings side f).tracker x = s.tracker x :=
  s.modUnit_tracker side x rfl

@[simp] theorem State.modView_tracker (v : View) (f : ViewUnit → ViewUnit) :
    (s.modView v f).tracker x = s.tracker x := s.modUnit_tracker v.side x (by cases v.isMain <;> rfl)

@[simp] theorem State.setTables_tracker (ts : TableStore) :
    ({ s with tables := ts } : State).tracker x = s.tracker x := by cases x <;> rfl

@[simp] theorem State.setFaults_tracker (fm : FaultManager) :
    ({ s with faults := fm } : State).tracker x = s.tracker x := by cases x <;> rfl

@[simp] theorem State.advance_tracker (t : Time) : (s.advance t).tracker x = s.tracker x := by cases x <;> rfl

@[simp] theorem State.activate_tracker (d : Descriptor) (w : List Word) : (s.activate d w).tracker x = s.tracker x := by
  simp [State.tracker]

@[simp] theorem State.deactivate_tracker (d : Descriptor) : (s.deactivate d).tracker x = s.tracker x := by
  simp [State.tracker]

@[simp] theorem State.raise_tracker (d : Descriptor) (w : List Word) : (s.raise d w).tracker x = s.tracker x := by
  simp [State.tracker]

@[simp] theorem State.level_tracker (d : Descriptor) (on : Bool) (w : List Word) :
    (s.level d on w).tracker x = s.tracker x := by simp [State.tracker]

/-! ### Reading tables -/

@[simp] theorem State.readWord_tracker (k : Kind) (b : Bank) (off : Nat) :
    (s.readWord k b off).2.tracker x = s.tracker x := by simp [State.tracker]

@[simp] theorem State.readWords_tracker (k : Kind) (b : Bank) (offs : List Nat) :
    (s.readWords k b offs).2.tracker x = s.tracker x := by simp [State.tracker]

@[simp] theorem State.latch_tracker (k : Kind) (offs : List Nat) : (s.latch k offs).2.tracker x = s.tracker x := by
  simp [State.tracker]

@[simp] theorem State.latchCopies_tracker : (s.latchCopies side).2.tracker x = s.tracker x := by simp [State.tracker]

@[simp] theorem State.latchIngest_tracker : (s.latchIngest side).2.tracker x = s.tracker x := by
  simp [State.latchIngest]

theorem State.tracker_of_latchReference {s s1 : State} {side : Side} {off : Nat} {w : Option Word}
    (h : s.latchReference side off = (w, s1)) (x : Side) : s1.tracker x = s.tracker x := by
  have hunit := s.latchReference_unit side x off
  rw [h] at hunit
  exact congrArg (·.glare) hunit

/-! ### The self-test sequencer -/

@[simp] theorem State.beginImmediate_tracker : (s.beginImmediate side).tracker x = s.tracker x := by
  simp [State.beginImmediate]

@[simp] theorem State.askSlot_tracker : (s.askSlot side).tracker x = s.tracker x := by
  unfold State.askSlot; split <;> simp

@[simp] theorem State.abandonReference_tracker : (s.abandonReference side).tracker x = s.tracker x := by
  unfold State.abandonReference; split <;> simp

@[simp] theorem State.reaskSlot_tracker : (s.reaskSlot side).tracker x = s.tracker x := by
  unfold State.reaskSlot
  split
  next => rfl
  next => split <;> simp

@[simp] theorem State.askTransfer_tracker (t : Transfer) : (s.askTransfer side t).tracker x = s.tracker x :=
  s.modBuffer_tracker side x _

@[simp] theorem State.endRun_tracker : (s.endRun side).tracker x = s.tracker x := by
  unfold State.endRun
  split
  next => rfl
  next => dsimp only; split <;> simp [State.releaseRun]

@[simp] theorem State.beginStep_tracker (r : Run) (st : Step) : (s.beginStep side r st).2.tracker x = s.tracker x := by
  cases st <;> simp only [State.beginStep]
  case link => unfold State.beginLink; split <;> simp
  case ident =>
    unfold State.beginIdent
    split
    next => rfl
    next => split <;> simp [State.tracker_of_latchReference ‹_›]
  case pattern =>
    unfold State.beginPattern
    split
    next => rfl
    next =>
      split
      next => simp [State.tracker_of_latchReference ‹_›]
      next => split <;> simp [State.tracker_of_latchReference ‹_›]
  case develop => unfold State.beginDevelop; split <;> simp [State.tracker_of_latchReference ‹_›]
  case store =>
    unfold State.beginStore
    split
    next => rfl
    next => split <;> simp

@[simp] theorem State.beginNext_tracker (steps : List Step) : (s.beginNext side steps).tracker x = s.tracker x := by
  induction steps generalizing s with
  | nil => exact s.endRun_tracker side x
  | cons st rest ih =>
    simp only [State.beginNext]
    split
    next => rfl
    next r _ =>
      have hbegin := s.beginStep_tracker side x r st
      split
      · split
        next hb => rwa [hb] at hbegin
        next hb => rw [hb] at hbegin; rw [ih, State.modSequencer_tracker, hbegin]
      · exact ih s

@[simp] theorem State.settle_tracker (o : StepOutcome) : (s.settle side o).tracker x = s.tracker x := by
  unfold State.settle; split <;> simp

@[simp] theorem State.acceptedCompletion_tracker (id : Option Half) :
    (s.acceptedCompletion side id).tracker x = s.tracker x := by
  unfold State.acceptedCompletion
  split
  next => rfl
  next => split <;> simp

@[simp] theorem State.patternCompletion_tracker (signature : Half) :
    (s.patternCompletion side signature).tracker x = s.tracker x := by
  unfold State.patternCompletion
  split
  next => rfl
  next => split <;> simp

@[simp] theorem State.patternFrameStart_tracker : (s.patternFrameStart side).tracker x = s.tracker x := by
  unfold State.patternFrameStart
  split
  next => rfl
  next =>
    split
    · dsimp only; split <;> simp
    · rfl

@[simp] theorem State.referenceDone_tracker (p : ReferencePass) : (s.referenceDone side p).tracker x = s.tracker x := by
  unfold State.referenceDone
  dsimp only
  split
  next => simp
  next =>
    split
    · split <;> simp
    · simp

@[simp] theorem State.writeDone_tracker (ok : Bool) : (s.writeDone side ok).tracker x = s.tracker x := by
  unfold State.writeDone
  split
  next owned rest _ => cases owned <;> cases ok <;> simp
  next => rfl

@[simp] theorem State.readDone_tracker (data : Option Picture) : (s.readDone side data).tracker x = s.tracker x := by
  unfold State.readDone
  split
  next owned rest _ =>
    dsimp only
    split
    · split <;> simp
    · simp
  next => rfl

@[simp] theorem State.lockLossInRun_tracker : (s.lockLossInRun side).tracker x = s.tracker x := by
  unfold State.lockLossInRun
  split
  next => rfl
  next => dsimp only; split <;> simp

@[simp] theorem State.startRun_tracker (selection : PerStep Bool) :
    (s.startRun side selection).tracker x = s.tracker x := by simp [State.startRun]

/-! ### Light and telemetry -/

@[simp] theorem State.lightCompletion_tracker (scene : Nat) :
    (s.lightCompletion side scene).tracker x = s.tracker x := by simp [State.lightCompletion]

@[simp] theorem State.telemetry_tracker (lux : Nat) (status : Byte) :
    (s.telemetry side lux status).tracker x = s.tracker x := by simp [State.telemetry]

@[simp] theorem State.ambientLost_tracker : (s.ambientLost side).tracker x = s.tracker x := by
  simp [State.ambientLost]

@[simp] theorem State.backlightStart_tracker : (s.backlightStart side).tracker x = s.tracker x := by
  simp [State.backlightStart]

/-! ### Ends of a frame -/

@[simp] theorem State.setFrame_tracker (f : Option FrameRecord) : (s.setFrame side f).tracker x = s.tracker x :=
  s.modIngest_tracker side x _

@[simp] theorem State.reportConcealed_tracker (f : FrameRecord) :
    (s.reportConcealed side f).tracker x = s.tracker x := by
  unfold State.reportConcealed; split <;> simp

@[simp] theorem State.abandonFramePass_tracker : (s.abandonFramePass side).tracker x = s.tracker x := by
  unfold State.abandonFramePass
  split
  next => rfl
  next => simp
  next => split <;> simp

@[simp] theorem State.abortFrame_tracker (f : FrameRecord) (reason : AbortReason) :
    (s.abortFrame side f reason).tracker x = s.tracker x := by
  simp [State.abortFrame, State.freeFilling, State.clearRecovery]

@[simp] theorem State.abortAndReask_tracker (f : FrameRecord) (reason : AbortReason) :
    (s.abortAndReask side f reason).tracker x = s.tracker x := by simp [State.abortAndReask]

@[simp] theorem State.discardFrame_tracker (f : FrameRecord) : (s.discardFrame side f).tracker x = s.tracker x := by
  simp [State.discardFrame, State.freeFilling, State.clearRecovery]

@[simp] theorem State.endBefore_tracker : (s.endBefore side).tracker x = s.tracker x := by
  unfold State.endBefore
  split
  next => rfl
  next => split <;> simp

/-! ### Frame starts (R5, R6, R21, R23, R24) -/

@[simp] theorem State.measurePeriod_tracker (t : IngestTiming) : (s.measurePeriod side t).tracker x = s.tracker x := by
  unfold State.measurePeriod; split <;> simp

@[simp] theorem State.setLatestStart_tracker (v : Option Time) :
    ({ s with latestStartL := v } : State).tracker x = s.tracker x := by cases x <;> rfl

@[simp] theorem State.setSkew_tracker (v : Option Word) : ({ s with skew := v } : State).tracker x = s.tracker x := by
  cases x <;> rfl

@[simp] theorem State.stampFrameStart_tracker : (s.stampFrameStart side).tracker x = s.tracker x := by
  cases side
  · exact (State.setLatestStart_tracker _ x _).trans (s.modIngest_tracker .left x _)
  · exact (State.setSkew_tracker _ x _).trans (s.modIngest_tracker .right x _)

@[simp] theorem State.beginPass_tracker : (s.beginPass side).tracker x = s.tracker x := by simp [State.beginPass]

@[simp] theorem State.takeFrameStart_tracker : (s.takeFrameStart side).tracker x = s.tracker x := by
  unfold State.takeFrameStart
  dsimp only
  split <;> simp

/-! ### Lines (R7 to R15) -/

@[simp] theorem State.checkCamera_tracker (f : FrameRecord) (id : Half) (status : Byte) :
    (s.checkCamera side f id status).tracker x = s.tracker x := by simp [State.checkCamera]

@[simp] theorem State.passCounter_tracker (counter : Byte) : (s.passCounter side counter).tracker x = s.tracker x := by
  unfold State.passCounter
  split
  next => simp
  next => split <;> simp

@[simp] theorem State.consumeSlot_tracker (f : FrameRecord) : (s.consumeSlot side f).tracker x = s.tracker x := by
  unfold State.consumeSlot
  dsimp only
  split <;> simp [State.freeFilling]

@[simp] theorem State.routeFrame_tracker (f : FrameRecord) (counter : Byte) (testPattern : Bool) :
    (s.routeFrame side f counter testPattern).tracker x = s.tracker x := by
  unfold State.routeFrame
  split
  next => split <;> simp [State.consumePattern, State.freeFilling]
  next => split <;> simp [State.acceptFrame]

@[simp] theorem State.settleFrame_tracker (f : FrameRecord) (codes : List Code) :
    (s.settleFrame side f codes).tracker x = s.tracker x := by
  unfold State.settleFrame
  dsimp only
  split <;> simp

theorem State.takeRows_tracker (rows : List (Nat × List Developed)) (w : WorkingCopies) :
    (rows.foldl (fun s' row => s'.takeRow side w row) s).tracker x = s.tracker x := by
  induction rows generalizing s with
  | nil => rfl
  | cons row rest ih => exact (ih _).trans (s.modUnit_tracker side x rfl)

@[simp] theorem State.developLine_tracker (y : Nat) (codes : List Code) :
    (s.developLine side y codes).tracker x = s.tracker x := by
  unfold State.developLine
  split
  next => rfl
  next p _ => exact (State.modUnit_tracker _ side x rfl).trans (s.takeRows_tracker side x _ p.copies)
  next => split <;> simp

@[simp] theorem State.takeLine_tracker (f : FrameRecord) (good : Bool) (codes : List Code) :
    (s.takeLine side f good codes).tracker x = s.tracker x := by
  unfold State.takeLine
  dsimp only
  split
  next => simp
  next => split <;> simp

@[simp] theorem State.lineArrives_tracker (index : Nat) (good : Bool) (codes : List Code) :
    (s.lineArrives side index good codes).tracker x = s.tracker x := by
  unfold State.lineArrives
  split
  next => rfl
  next =>
    split
    case h_1 | h_2 => rfl
    case h_3 =>
      split
      · simp
      · split <;> simp
    all_goals
      split
      · simp
      · split <;> simp

/-! ### Completions (R17, R20, R22) -/

@[simp] theorem State.detectFrozen_tracker (f : FrameRecord) : (s.detectFrozen side f).tracker x = s.tracker x := by
  unfold State.detectFrozen
  dsimp only
  split <;> split <;> simp

@[simp] theorem State.endPaced_tracker : (s.endPaced side).tracker x = s.tracker x := by
  unfold State.endPaced
  split
  next => split <;> simp
  next => rfl

@[simp] theorem State.tellSequencer_tracker (f : FrameRecord) : (s.tellSequencer side f).tracker x = s.tracker x := by
  unfold State.tellSequencer; split <;> simp

@[simp] theorem State.reportConcealed_tables (f : FrameRecord) : (s.reportConcealed side f).tables = s.tables := by
  unfold State.reportConcealed; split <;> simp

@[simp] theorem State.detectFrozen_tables (f : FrameRecord) : (s.detectFrozen side f).tables = s.tables := by
  unfold State.detectFrozen
  dsimp only
  split <;> split <;> simp

/-! ### The output frame start (R59) and DDR transfers (R54, R55) -/

@[simp] theorem State.reportLost_tracker (v : View) (cause : Option Word) :
    (s.reportLost v cause).tracker x = s.tracker x := by cases cause <;> simp [State.reportLost]

@[simp] theorem State.outputView_tracker (v : View) : (s.outputView v).tracker x = s.tracker x := by
  simp [State.outputView, State.measureLatency]

@[simp] theorem State.latchLimits_tracker : (s.latchLimits side).tracker x = s.tracker x :=
  (State.modUnit_tracker _ side x rfl).trans (s.latch_tracker x _ _)

@[simp] theorem State.latchPolicy_tracker : (s.latchPolicy side).tracker x = s.tracker x := by
  simp [State.latchPolicy]

@[simp] theorem State.latchOutputTiming_tracker : (s.latchOutputTiming side).2.tracker x = s.tracker x :=
  s.latch_tracker x _ _

@[simp] theorem State.takeOutputStart_tracker : (s.takeOutputStart side).tracker x = s.tracker x := by
  simp [State.takeOutputStart, State.captureTrailer]

@[simp] theorem State.writeFails_tracker (v : View) : (s.writeFails v).tracker x = s.tracker x := by
  unfold State.writeFails; split <;> simp

@[simp] theorem State.regionRead_tracker (v : View) (ok : Bool) : (s.regionRead v ok).tracker x = s.tracker x := by
  unfold State.regionRead
  split
  next => split <;> simp
  next => rfl

/-! ### The command channel -/

@[simp] theorem State.acceptCommand_tracker (c : Command) : (s.acceptCommand side c).tracker x = s.tracker x := by
  unfold State.acceptCommand; split <;> simp

@[simp] theorem State.routePacket_tracker (c : Command) : (s.routePacket side c).tracker x = s.tracker x := by
  unfold State.routePacket
  split
  next => split <;> simp [State.framingError]
  next => simp

@[simp] theorem State.takeByte_tracker (b : Byte) : (s.takeByte side b).tracker x = s.tracker x := by
  unfold State.takeByte
  split
  next => unfold State.takeLen; split <;> simp [State.setReceiver, State.framingError]
  next =>
    unfold State.collect
    split
    next => simp [State.setReceiver]
    next => unfold State.checkPacket; split <;> simp [State.setReceiver]

@[simp] theorem State.packetTimedOut_tracker : (s.packetTimedOut side).tracker x = s.tracker x := by
  unfold State.packetTimedOut
  split
  next => rfl
  next => split <;> simp [State.setReceiver, State.framingError]

@[simp] theorem State.setExecutor_tracker (e : Executor) (last : Side) :
    ({ s with executor := e, lastServed := last } : State).tracker x = s.tracker x := by cases x <;> rfl

@[simp] theorem State.deliver_tracker (c : Command) : (s.deliver side c).tracker x = s.tracker x := by
  unfold State.deliver; split <;> simp

@[simp] theorem State.takeCommand_tracker : (s.takeCommand side).tracker x = s.tracker x :=
  (State.setExecutor_tracker _ x _ _).trans (s.modChannel_tracker side x _)

@[simp] theorem State.respond_tracker (c : Command) (r : Reply) : (s.respond side c r).tracker x = s.tracker x :=
  (State.setExecutor_tracker _ x _ _).trans (s.modChannel_tracker side x _)

/-! ### The table store -/

@[simp] theorem State.switchBanks_tracker (k : Kind) : (s.switchBanks k).tracker x = s.tracker x := by
  unfold State.switchBanks
  dsimp only
  split <;> simp

@[simp] theorem State.resetOrigins_tracker (ws : List (Nat × Word)) : (s.resetOrigins ws).tracker x = s.tracker x := by
  simp [State.resetOrigins, allViews]

theorem acceptedCommit_tracker (k : Kind) (crc : Nat) : (acceptedCommit k crc s).2.tracker x = s.tracker x := by
  have hread := s.readWords_tracker x k (s.tables.kind k).live.other (List.range k.size)
  unfold acceptedCommit
  split
  next hr => rwa [hr] at hread
  next ws s1 hr =>
    rw [hr] at hread
    split
    · exact hread
    · split
      · exact hread
      · refine Eq.trans ?_ hread
        unfold commitSucceeds
        dsimp only
        split <;> simp

theorem acceptedRead_tracker (k : Kind) (shadow : Bool) (off count : Nat) :
    (acceptedRead k shadow off count s).2.tracker x = s.tracker x := by
  have hread := s.readWords_tracker x k (namedBank s.tables k shadow) (List.range' off (min count (k.size - off)))
  unfold acceptedRead
  split <;> next hr => rwa [hr] at hread

@[simp] theorem State.copyWord_tracker (k : Kind) (c : SyncCopy) : (s.copyWord k c).tracker x = s.tracker x := by
  simp [State.copyWord]

@[simp] theorem State.syncStep_tracker (k : Kind) : (s.syncStep k).tracker x = s.tracker x := by
  unfold State.syncStep
  split
  next => rfl
  next => split <;> simp

@[simp] theorem State.scrub_tracker : s.scrub.tracker x = s.tracker x := by
  unfold State.scrub
  split
  next => rfl
  next => dsimp only; split <;> simp

@[simp] theorem State.scrubIfDue_tracker : s.scrubIfDue.tracker x = s.tracker x := by
  unfold State.scrubIfDue
  split
  next => rfl
  next => split <;> simp

/-! ### Standing conditions of a soft reset -/

@[simp] theorem State.standCamera_tracker : (s.standCamera side).tracker x = s.tracker x := by
  unfold State.standCamera; split <;> simp

@[simp] theorem State.standDisplay_tracker : (s.standDisplay side).tracker x = s.tracker x := by
  unfold State.standDisplay
  dsimp only
  split <;> split <;> simp

@[simp] theorem State.standTables_tracker : s.standTables.tracker x = s.tracker x := by
  unfold State.standTables; split <;> simp

@[simp] theorem State.takeStanding_tracker : s.takeStanding.tracker x = s.tracker x := by simp [State.takeStanding]

end Sys2Proof.Machine
end

section
/-! SUPPORT. Every step keeps the trackers sound: a completion while the live target attenuation is in its range, the
clearing of a tracker and GET_GLARE always, and every other step leaves the trackers alone. -/

namespace Sys2Proof.Machine

/-! ### One completion (R75 to R77, R82) -/

/-- What a tracker works with at a completion: its fields of GLARE, or the fallback (R76). -/
def State.trackerFields (s : State) (side : Side) : TrackerGlare :=
  ((s.latch .glare trackerWords).1.map fun ws => trackerGlareOf ws side).getD trackerGlareFallback

/-- Whether GLARE_OVERLOAD stands after a completion (R82). -/
def State.overloadedBy (s : State) (side : Side) (map : List Bool) : Bool :=
  (s.trackerFields side).fromTable && decide ((s.trackerFields side).overload ≤ map.countP id)

theorem State.trackerCompletion_eq (s : State) (side : Side) (map : List Bool) :
    s.trackerCompletion side map =
      ((s.latch .glare trackerWords).2.level (.cam side .glareOverload) (s.overloadedBy side map)
        [BitVec.ofNat 32 (map.countP id)]).modGlare side fun g =>
          { g with hotTotal := map.countP id }.complete (s.trackerFields side)
            (trackingRuns s side (s.trackerFields side)) (s.overloadedBy side map) map := by
  have h := (s.latch .glare trackerWords).2.level_inSet (.cam side .glareOverload) (s.overloadedBy side map)
    [BitVec.ofNat 32 (map.countP id)]
  unfold State.trackerCompletion
  dsimp only
  unfold State.overloadedBy State.trackerFields at *
  rw [h]

theorem trackerWords_nodup : trackerWords.Nodup := by decide

theorem State.trackerFields_fallback {s : State} (side : Side) (h : (s.latch .glare trackerWords).1 = none) :
    s.trackerFields side = trackerGlareFallback := by rw [State.trackerFields, h]; rfl

theorem State.trackerFields_table {s : State} (side : Side) {ws : List (Nat × Word)}
    (h : (s.latch .glare trackerWords).1 = some ws) : s.trackerFields side = trackerGlareOf ws side := by
  rw [State.trackerFields, h]; rfl

/-- While tracking runs, its target is that of the live bank (R76, R77). -/
theorem State.target_of_running {s : State} {side : Side} (h : s.glareTargetInRange)
    (hr : trackingRuns s side (s.trackerFields side) = true) :
    16 ≤ (s.trackerFields side).target ∧ (s.trackerFields side).target ≤ 255 := by
  have htable : (s.trackerFields side).fromTable = true := by
    simp only [trackingRuns, Bool.and_eq_true] at hr
    exact hr.1.2
  have hsome : (s.latch .glare trackerWords).1 ≠ none := fun hn => by
    rw [State.trackerFields_fallback side hn] at htable
    cases htable
  have hgood : ¬ (s.tables.usable .glare = false ∨
      ∃ off ∈ trackerWords, 2 ≤ (s.tables.word .glare (s.tables.kind .glare).live off).errors) := fun hf =>
    hsome (State.latch_fallback trackerWords_nodup hf)
  obtain ⟨hu, hsingle⟩ := not_or.1 hgood
  have hu : s.tables.usable .glare = true := by simpa using hu
  have hlatch := State.latch_corrected hu trackerWords_nodup fun off hoff =>
    Nat.lt_of_not_le fun hge => hsingle ⟨off, hoff, hge⟩
  rw [State.trackerFields_table side hlatch]
  show 16 ≤ bits (wordAt _ 14) 0 8 ∧ bits (wordAt _ 14) 0 8 ≤ 255
  rw [wordAt_corrected _ _ _ (by decide)]
  exact h hu

/-! ### The state of both trackers -/

/-- Both trackers are sound. -/
def State.trackersSound (s : State) : Prop := ∀ x, (s.tracker x).sound

variable {s : State}

theorem State.trackersSound.congr {s' : State} (h : s.trackersSound) (he : ∀ x, s'.tracker x = s.tracker x) :
    s'.trackersSound := fun x => by rw [he x]; exact h x

theorem State.trackersSound.modGlare (h : s.trackersSound) (side : Side) {f : Glare → Glare}
    (hf : (s.tracker side).sound → (f (s.tracker side)).sound) : (s.modGlare side f).trackersSound := fun x => by
  by_cases hx : x = side
  · rw [hx, State.tracker, State.modGlare_unit_same]
    exact hf (h side)
  · have hother : (s.modGlare side f).unit x = s.unit x := State.modUnit_unit_of_ne s hx _
    rw [State.tracker, hother]
    exact h x

/-- Soundness looks at neither the hot cell total nor the running mark. -/
theorem Glare.sound.setHotTotal {g : Glare} (h : g.sound) (n : Nat) : ({ g with hotTotal := n } : Glare).sound := h

theorem State.trackerCompletion_trackersSound (h : s.trackersSound) (ht : s.glareTargetInRange) (side : Side)
    (map : List Bool) : (s.trackerCompletion side map).trackersSound := by
  rw [State.trackerCompletion_eq]
  refine (h.congr fun x => ?_).modGlare side fun hg => ?_
  · simp
  · exact Glare.complete_sound (hg.setHotTotal _) _ _ _ _ (State.target_of_running ht)

/-- A cleared tracker has no track, no candidate and no zone (R97). -/
theorem State.clearTracker_trackersSound (h : s.trackersSound) (side : Side) : (s.clearTracker side).trackersSound := by
  refine State.trackersSound.congr (h.modGlare side fun hg => ?_) fun x => State.deactivate_tracker _ x _
  obtain ⟨hsteady, -, -⟩ := (Glare.sound_iff _).1 hg
  refine (Glare.sound_iff _).2 ⟨⟨⟨fun i => ?_, fun i j hi => ?_⟩, Nat.zero_le 8, hsteady.droppedComponents,
    hsteady.droppedCandidates⟩, Nat.zero_le 6, fun z hz => by cases hz⟩
  · simpa using Track.freed_sound
  · simp [Track.freed] at hi

theorem State.glareTargetInRange.congr {s' : State} (h : s.glareTargetInRange) (he : s'.tables = s.tables) :
    s'.glareTargetInRange := by
  unfold State.glareTargetInRange at *
  rwa [he]

/-! ### The camera link -/

theorem State.completeViews_trackersSound (h : s.trackersSound) (ht : s.glareTargetInRange) (side : Side)
    (f : FrameRecord) : (s.completeViews side f).trackersSound := by
  unfold State.completeViews
  split
  next =>
    have hviews : (s.modViews side ViewUnit.complete).trackersSound := h.congr fun x => s.modViews_tracker side x _
    unfold State.publish
    split
    next p _ =>
      refine State.trackersSound.congr ?_ fun x => State.lightCompletion_tracker _ side x _
      exact State.trackerCompletion_trackersSound (hviews.congr fun x => State.setPass_tracker _ side x _)
        (ht.congr (by simp)) side _
    next => exact hviews
  next => exact h

theorem State.completeFrame_trackersSound (h : s.trackersSound) (ht : s.glareTargetInRange) (side : Side)
    (f : FrameRecord) : (s.completeFrame side f).trackersSound := by
  unfold State.completeFrame
  dsimp only
  generalize hs3 : (if f.treatment = .accepted then _ else _) = s3
  have htracker : ∀ x, s3.tracker x = s.tracker x := fun x => by rw [← hs3]; split <;> simp
  have htables : s3.tables = s.tables := by rw [← hs3]; split <;> simp [State.setFrame]
  refine (State.completeViews_trackersSound (h.congr htracker) (ht.congr htables) side f).congr fun x => ?_
  rw [State.tellSequencer_tracker, State.modComposer_tracker]

theorem State.takeFrameEnd_trackersSound (h : s.trackersSound) (ht : s.glareTargetInRange) (side : Side) :
    (s.takeFrameEnd side).trackersSound := by
  unfold State.takeFrameEnd
  split
  next => exact h
  next f _ =>
    split
    next => exact h.congr fun x => s.setFrame_tracker side x none
    next =>
      split
      next => exact State.completeFrame_trackersSound h ht side f
      next => exact h.congr fun x => s.abortAndReask_tracker side x f .short

@[simp] theorem State.grantHeld_tracker (s : State) (side x : Side) : (s.grantHeld side).tracker x = s.tracker x := by
  unfold State.grantHeld; split <;> simp

@[simp] theorem State.emptyLatest_tracker (s : State) (side x : Side) :
    (s.emptyLatest side).tracker x = s.tracker x := by
  cases side
  · exact s.setLatestStart_tracker x none
  · rfl

theorem State.loseLock_trackersSound (h : s.trackersSound) (side : Side) : (s.loseLock side).trackersSound := by
  unfold State.loseLock
  dsimp only
  generalize hs1 : State.endAtLoss _ side = s1
  have htracker : ∀ x, s1.tracker x = s.tracker x := fun x => by rw [← hs1, State.endAtLoss]; simp
  exact (State.clearTracker_trackersSound (h.congr htracker) side).congr fun x => by simp

theorem State.gainLock_trackersSound (h : s.trackersSound) (side : Side) : (s.gainLock side).trackersSound :=
  State.clearTracker_trackersSound (h.congr fun x => by simp) side

end Sys2Proof.Machine
end

section
/-! SUPPORT. The commands, the resets and every step keep the trackers sound. -/

namespace Sys2Proof.Machine

/-! ### The bodies of the commands -/

section
variable (s : State) (x : Side) (param : List Byte)

theorem withNone_tracker {f : Reply × State} (hf : f.2.tracker x = s.tracker x) :
    (withNone param s f).2.tracker x = s.tracker x :=
  withNone_state (p := fun a => a.tracker x = s.tracker x) rfl hf

theorem withSide_tracker {f : Side → Reply × State} (hf : ∀ side, (f side).2.tracker x = s.tracker x) :
    (withSide param s f).2.tracker x = s.tracker x :=
  withSide_state (p := fun a => a.tracker x = s.tracker x) rfl hf

theorem getStatusBody_tracker : (getStatusBody param s).2.tracker x = s.tracker x :=
  withNone_tracker s x param (by simp [State.clearSuperseded])

theorem State.goRun_tracker : s.goRun.tracker x = s.tracker x := by
  unfold State.goRun
  rw [State.modViews_tracker, State.modViews_tracker]
  cases x <;> rfl

theorem enterRunBody_tracker : (enterRunBody param s).2.tracker x = s.tracker x := by
  refine withNone_tracker s x param ?_
  split
  next => rfl
  next =>
    split
    next => rfl
    next => exact s.goRun_tracker x

theorem softResetBody_tracker (link : Side) : (softResetBody link param s).2.tracker x = s.tracker x :=
  withNone_tracker s x param (State.setExecutor_tracker s x _ _)

theorem setChannelBody_tracker (link : Side) : (setChannelBody link param s).2.tracker x = s.tracker x := by
  unfold setChannelBody; split <;> simp

theorem loadTableBody_tracker : (loadTableBody param s).2.tracker x = s.tracker x := by
  unfold loadTableBody
  split
  next =>
    split
    next => rfl
    next =>
      split
      · rfl
      · split
        · rfl
        · split
          · rfl
          · exact s.setTables_tracker x _
  next => rfl

theorem commitTableBody_tracker : (commitTableBody param s).2.tracker x = s.tracker x := by
  unfold commitTableBody
  split
  next =>
    split
    next => rfl
    next =>
      split
      · rfl
      · split
        · rfl
        · exact acceptedCommit_tracker s x _ _
  next => rfl

theorem readTableBody_tracker : (readTableBody param s).2.tracker x = s.tracker x := by
  unfold readTableBody
  split
  next =>
    split
    next =>
      split
      · rfl
      · split
        · rfl
        · exact acceptedRead_tracker s x _ _ _ _
    next => rfl
  next => rfl

theorem lockTableBody_tracker : (lockTableBody param s).2.tracker x = s.tracker x := by
  unfold lockTableBody
  split
  next => split <;> simp
  next => rfl

theorem setPanBody_tracker : (setPanBody param s).2.tracker x = s.tracker x := by
  unfold setPanBody
  split
  next => split <;> simp [acceptedPan]
  next => rfl

theorem forceLightBody_tracker : (forceLightBody param s).2.tracker x = s.tracker x := by
  unfold forceLightBody
  split
  next => split <;> simp
  next => rfl

theorem State.clearEvents_tracker (m : BitVec 51) : (s.clearEvents m).tracker x = s.tracker x :=
  (State.setFaults_tracker _ x _).trans (s.latch_tracker x .policy [0])

theorem clearEventsBody_tracker : (clearEventsBody param s).2.tracker x = s.tracker x := by
  unfold clearEventsBody
  split
  · rfl
  · split
    next => rfl
    next =>
      split
      · rfl
      · exact s.clearEvents_tracker x _

theorem setEventEnableBody_tracker : (setEventEnableBody param s).2.tracker x = s.tracker x := by
  unfold setEventEnableBody
  split
  · rfl
  · split
    next =>
      split
      · rfl
      · exact s.setFaults_tracker x _
    next => rfl

theorem readLogBody_tracker : (readLogBody param s).2.tracker x = s.tracker x := by
  unfold readLogBody
  split
  next =>
    split
    · rfl
    · exact s.setFaults_tracker x _
  next => rfl

theorem startSelftestBody_tracker : (startSelftestBody param s).2.tracker x = s.tracker x := by
  unfold startSelftestBody
  split
  next =>
    split
    next =>
      unfold startChecked
      dsimp only
      split
      · rfl
      · split
        · rfl
        · split <;> simp
    next => rfl
  next => rfl

theorem abortSelftestBody_tracker : (abortSelftestBody param s).2.tracker x = s.tracker x :=
  withSide_tracker s x param fun side => s.endRun_tracker side x

theorem clearSelftestBody_tracker : (clearSelftestBody param s).2.tracker x = s.tracker x :=
  withSide_tracker s x param fun side => s.modSequencer_tracker side x _

end

variable {s : State}

/-- GET_GLARE clears the dropped counts. -/
theorem getGlareBody_trackersSound (h : s.trackersSound) (param : List Byte) :
    (getGlareBody param s).2.trackersSound :=
  withSide_state h fun side => h.modGlare side fun hg => by
    obtain ⟨hsteady, hzones⟩ := (Glare.sound_iff _).1 hg
    exact (Glare.sound_iff _).2 ⟨⟨hsteady.tracks, hsteady.candidates, Nat.zero_le 255, Nat.zero_le 255⟩, hzones⟩

/-- ENTER_CONFIG clears the tracker of each side (R97, R199). -/
theorem State.stopSide_trackersSound (h : s.trackersSound) (side : Side) : (s.stopSide side).trackersSound := by
  unfold State.stopSide
  dsimp only
  generalize hs1 : State.modRings _ side Ring.freeAll = s1
  have htracker : ∀ x, s1.tracker x = s.tracker x := fun x => by rw [← hs1]; simp
  exact (State.clearTracker_trackersSound (h.congr htracker) side).congr fun x => by simp

theorem enterConfigBody_trackersSound (h : s.trackersSound) (param : List Byte) :
    (enterConfigBody param s).2.trackersSound := by
  refine withNone_state h ?_
  split
  next => exact h
  next =>
    have hconfig : ({ s with mode := .config } : State).trackersSound := h.congr fun x => by cases x <;> rfl
    exact State.stopSide_trackersSound (State.stopSide_trackersSound hconfig .left) .right

/-! ### Resets -/

/-- A tracker as it stands after a reset is sound (R98). -/
theorem Glare.initial_sound : ({} : Glare).sound := by
  refine (Glare.sound_iff _).2 ⟨⟨⟨fun i => ?_, fun i j hi => ?_⟩, Nat.zero_le 8, Nat.zero_le 255, Nat.zero_le 255⟩, ?_⟩
  · rw [Vector.getElem_replicate]
    exact Track.freed_sound
  · simp at hi
  · exact ⟨Nat.zero_le 6, fun z hz => by cases hz⟩

theorem State.performSoftReset_trackersSound (s : State) : s.performSoftReset.trackersSound := by
  intro x
  unfold State.performSoftReset
  dsimp only
  rw [State.takeStanding_tracker]
  cases x <;> exact Glare.initial_sound

theorem State.reset_trackersSound : State.reset.trackersSound := fun x => by cases x <;> exact Glare.initial_sound

/-! ### Every step -/

/-- An answer whose next state has sound trackers. -/
def Answer.trackersSound (x : Answer) : Prop := ∀ s', x = .next s' → s'.trackersSound

theorem Answer.trackersSound.of_next {s' : State} (h : s'.trackersSound) : Answer.trackersSound (.next s') := by
  rintro _ ⟨⟩
  exact h

/-- A command row keeps the trackers sound when its body does. -/
theorem State.command_trackersSound (h : s.trackersSound) (t : Time) (link : Side) (kind tag : Byte)
    (param : List Byte) {body : State → Reply × State}
    (hbody : ∀ a : State, a.trackersSound → (body a).2.trackersSound) :
    Answer.trackersSound (s.command t link kind tag param body) := by
  refine .of_next ?_
  unfold State.runCommand
  dsimp only
  split
  next =>
    refine (hbody _ (h.congr fun x => ?_)).congr fun x => State.respond_tracker _ link x _ _
    rw [State.takeCommand_tracker, State.deliver_tracker, State.advance_tracker]
  next => exact h.congr fun x => by rw [State.deliver_tracker, State.advance_tracker]

/-- A step that acts on a condition, and otherwise changes nothing but device time. -/
theorem State.trackersSound_ite {a b : State} {c : Prop} [Decidable c] (ha : c → a.trackersSound)
    (hb : b.trackersSound) : (if c then a else b).trackersSound := by
  split
  next hc => exact ha hc
  next => exact hb

theorem execSoftResetInstant_trackersSound (h : s.trackersSound) (t : Time) :
    (execSoftResetInstant t s).trackersSound := by
  have h0 : (s.advance t).trackersSound := h.congr fun x => s.advance_tracker x t
  refine .of_next ?_
  split
  next => exact State.trackersSound_ite (fun _ => State.performSoftReset_trackersSound _) h0
  next => exact h0

theorem execReferencePassEnd_trackersSound (h : s.trackersSound) (t : Time) (side : Side) :
    (execReferencePassEnd t side s).trackersSound := by
  have h0 : (s.advance t).trackersSound := h.congr fun x => s.advance_tracker x t
  refine .of_next ?_
  split
  next =>
    split
    next => exact State.trackersSound_ite (fun _ => h0.congr fun x => State.referenceDone_tracker _ side x _) h0
    next => exact h0
  next => exact h0

theorem execFrameStartStampExpiry_trackersSound (h : s.trackersSound) (t : Time) (side : Side) :
    (execFrameStartStampExpiry t side s).trackersSound := by
  refine .of_next (h.congr fun x => ?_)
  cases side
  · exact (State.setLatestStart_tracker _ x _).trans (by simp)
  · simp

theorem exec_trackersSound (h : s.trackersSound) (ht : s.glareTargetInRange) (i : Instr) :
    Answer.trackersSound (exec i s) := by
  have h0 : ∀ t, (s.advance t).trackersSound := fun t => h.congr fun x => s.advance_tracker x t
  have ht0 : ∀ t, (s.advance t).glareTargetInRange := fun t => ht.congr rfl
  have kept : ∀ t {s' : State}, (∀ x, s'.tracker x = (s.advance t).tracker x) → Answer.trackersSound (.next s') :=
    fun t _ he => .of_next ((h0 t).congr he)
  have guarded : ∀ t {s' : State} {c : Prop} [Decidable c], s'.trackersSound →
      Answer.trackersSound (.next (if c then s' else s.advance t)) := fun t _ _ _ hs =>
    .of_next (State.trackersSound_ite (fun _ => hs) (h0 t))
  have command : ∀ t link kind tag param {body : State → Reply × State},
      (∀ a : State, a.trackersSound → (body a).2.trackersSound) →
        Answer.trackersSound (s.command t link kind tag param body) := fun t link kind tag param _ hb =>
    State.command_trackersSound h t link kind tag param hb
  have quiet : ∀ t link kind tag param {body : State → Reply × State},
      (∀ (a : State) (x : Side), (body a).2.tracker x = a.tracker x) →
        Answer.trackersSound (s.command t link kind tag param body) := fun t link kind tag param _ hb =>
    command t link kind tag param fun a ha => ha.congr (hb a)
  cases i with
  | powerOn => exact .of_next (State.reset_trackersSound.congr fun x => by cases x <;> rfl)
  | tableClearEnd t => exact guarded t ((h0 t).congr fun x => by cases x <;> rfl)
  | softResetInstant t => exact execSoftResetInstant_trackersSound h t
  | linkLost t side => exact guarded t (State.loseLock_trackersSound (h0 t) side)
  | linkLock t side => exact guarded t (State.gainLock_trackersSound (h0 t) side)
  | frameStart t side => exact guarded t ((h0 t).congr fun x => State.takeFrameStart_tracker _ side x)
  | embeddedLine t side good codes =>
    exact guarded t ((h0 t).congr fun x => State.lineArrives_tracker _ side x 0 good codes)
  | activeLine t side index good codes =>
    exact guarded t ((h0 t).congr fun x => State.lineArrives_tracker _ side x index good codes)
  | frameEnd t side => exact guarded t (State.takeFrameEnd_trackersSound (h0 t) (ht0 t) side)
  | referencePassEnd t side => exact execReferencePassEnd_trackersSound h t side
  | silentTimerExpiry t side => exact guarded t ((h0 t).congr fun x => by simp)
  | frameStartStampExpiry t side => exact execFrameStartStampExpiry_trackersSound h t side
  | completionStampExpiry t side => exact kept t fun x => State.modComposer_tracker _ side x _
  | ddrWriteFail t v => exact kept t fun x => State.writeFails_tracker _ x v
  | regionReadDone t v ok => exact kept t fun x => State.regionRead_tracker _ x v ok
  | outputFrameStart t side => exact guarded t ((h0 t).congr fun x => State.takeOutputStart_tracker _ side x)
  | returnLaneByte t link b =>
    exact .of_next (State.trackersSound_ite (fun _ => h0 t) ((h0 t).congr fun x => State.takeByte_tracker _ link x b))
  | packetTimeout t link => exact kept t fun x => State.packetTimedOut_tracker _ link x
  | ambientTimerExpiry t side => exact guarded t ((h0 t).congr fun x => State.ambientLost_tracker _ side x)
  | pulseExpiry t d => exact kept t fun x => State.setFaults_tracker _ x _
  | holdOffExpiry t => exact guarded t ((h0 t).congr fun x => State.setFaults_tracker _ x _)
  | selftestStepTimeout t side => exact guarded t ((h0 t).congr fun x => State.settle_tracker _ side x .fail)
  | storeWriteDone t side ok => exact kept t fun x => State.writeDone_tracker _ side x ok
  | storeReadDone t side data => exact kept t fun x => State.readDone_tracker _ side x data
  | syncWordCopy t k => exact kept t fun x => State.syncStep_tracker _ x k
  | scrubVisit t upsets =>
    exact kept t fun x => (State.scrubIfDue_tracker _ x).trans (State.setTables_tracker _ x _)
  | echo t link tag param => exact quiet _ _ _ _ _ fun a x => by rw [echoBody_state]
  | getStatus t link tag param => exact quiet _ _ _ _ _ fun a x => getStatusBody_tracker a x param
  | enterRun t link tag param => exact quiet _ _ _ _ _ fun a x => enterRunBody_tracker a x param
  | enterConfig t link tag param => exact command _ _ _ _ _ fun _ ha => enterConfigBody_trackersSound ha param
  | softReset t link tag param => exact quiet _ _ _ _ _ fun a x => softResetBody_tracker a x param link
  | setChannel t link tag param => exact quiet _ _ _ _ _ fun a x => setChannelBody_tracker a x param link
  | loadTable t link tag param => exact quiet _ _ _ _ _ fun a x => loadTableBody_tracker a x param
  | commitTable t link tag param => exact quiet _ _ _ _ _ fun a x => commitTableBody_tracker a x param
  | readTable t link tag param => exact quiet _ _ _ _ _ fun a x => readTableBody_tracker a x param
  | tableStatus t link tag param => exact command _ _ _ _ _ fun _ ha => withNone_state ha ha
  | lockTable t link tag param => exact quiet _ _ _ _ _ fun a x => lockTableBody_tracker a x param
  | setPan t link tag param => exact quiet _ _ _ _ _ fun a x => setPanBody_tracker a x param
  | forceLight t link tag param => exact quiet _ _ _ _ _ fun a x => forceLightBody_tracker a x param
  | getGlare t link tag param => exact command _ _ _ _ _ fun _ ha => getGlareBody_trackersSound ha param
  | getTiming t link tag param => exact command _ _ _ _ _ fun _ ha => withNone_state ha ha
  | getEvents t link tag param => exact command _ _ _ _ _ fun _ ha => withNone_state ha ha
  | clearEvents t link tag param => exact quiet _ _ _ _ _ fun a x => clearEventsBody_tracker a x param
  | setEventEnable t link tag param => exact quiet _ _ _ _ _ fun a x => setEventEnableBody_tracker a x param
  | readLog t link tag param => exact quiet _ _ _ _ _ fun a x => readLogBody_tracker a x param
  | startSelftest t link tag param => exact quiet _ _ _ _ _ fun a x => startSelftestBody_tracker a x param
  | abortSelftest t link tag param => exact quiet _ _ _ _ _ fun a x => abortSelftestBody_tracker a x param
  | getSelftest t link tag param => exact command _ _ _ _ _ fun _ ha => withSide_state ha fun _ => ha
  | clearSelftest t link tag param => exact quiet _ _ _ _ _ fun a x => clearSelftestBody_tracker a x param
  | badKindCommand t link tag kind param =>
    simp only [exec, execBadKindCommand]
    split
    · exact .of_next (h0 t)
    · exact quiet _ _ _ _ _ fun _ _ => rfl

/-- A step keeps the trackers sound while the live target attenuation is in its range. -/
theorem step_trackersSound {s' : State} (h : s.trackersSound) (ht : s.glareTargetInRange) (hstep : step s = .next s') :
    s'.trackersSound := by
  unfold step at hstep
  split at hstep
  next => exact Answer.trackersSound.of_next h s' hstep
  next i rest _ =>
    have hrest : ({ s with pending := rest } : State).trackersSound := h.congr fun x => by cases x <;> rfl
    exact exec_trackersSound hrest ht i s' hstep

end Sys2Proof.Machine
end

section
/-! SUPPORT. What one completion of a tracker is, as its rules say it (R75 to R96). -/

namespace Sys2Proof.Machine

/-- A hit, as R87 says it. -/
theorem Track.hit_eq (x : Track) (c : Candidate) :
    x.hit c =
      { x with
        qx := c.qx, qy := c.qy, box := c.box, misses := 0, history := x.history <<< 1 ||| 1
        vx := max (-32) (min 31 ((x.vx + ((c.qx : Int) - x.qx)).fdiv 2))
        vy := max (-32) (min 31 ((x.vy + ((c.qy : Int) - x.qy)).fdiv 2)) } := by
  simp only [Track.hit, newVelocity_eq]

/-- The distance of a pair of a slot and a candidate index, as R85 says it. -/
theorem distanceAt_eq (gate : Nat) (tracks : List Track) (cands : List Candidate) (i j : Nat) :
    distanceAt gate tracks cands i j =
      match tracks[i]?, cands[j]? with
      | some x, some c =>
        if x.state ≠ .free ∧ c.oversize = false ∧
            ((c.qx : Int) - max 0 (min 119 ((x.qx : Int) + x.vx))).natAbs ≤ gate ∧
            ((c.qy : Int) - max 0 (min 79 ((x.qy : Int) + x.vy))).natAbs ≤ gate then
          some (((c.qx : Int) - max 0 (min 119 ((x.qx : Int) + x.vx))).natAbs +
            ((c.qy : Int) - max 0 (min 79 ((x.qy : Int) + x.vy))).natAbs)
        else none
      | _, _ => none := by
  unfold distanceAt
  cases tracks[i]? with
  | none => rfl
  | some x =>
    cases cands[j]? with
    | none => rfl
    | some c => simp only [Option.bind_some, pairDistance, Track.predicted, clampNat_cast, Nat.cast_ofNat]

/-- A tracker with the zones of its dimming tracks published. -/
theorem Glare.publish_eq (g : Glare) (margin : Nat) :
    g.publish margin =
      { g with
        zones := (g.tracks.toList.filter fun x =>
          decide (x.state = .confirmed ∨ x.state = .coasting ∨ x.state = .releasing) &&
            decide (x.attenuation < 256)).map (zoneOf margin) } := by
  rw [Glare.publish, funext Track.dims_eq]

/-- Settles O53: each part of a completion is what its rules say, the components and the matched pairs are those of the
model, and every step keeps both trackers sound. -/
theorem aTrackerCompletionKeepsItsTracksSound : Obligations.ATrackerCompletionKeepsItsTracksSound := by
  unfold Obligations.ATrackerCompletionKeepsItsTracksSound
  refine ⟨Track.hit_eq, fun x => ⟨rfl, x.miss_box_x, x.miss_box_y⟩, fun f x => ?_, fun f x => ?_,
    fun margin x hx hx1 hy hy1 => ?_, fun g overload c => ?_, fun g f overload map => ?_, fun s side map => ?_,
    fun g f running overload map h ht => Glare.complete_sound h f running overload map ht,
    fun s s' hstep ht hl hr => ?_⟩
  · intro hit state
    have hstate : x.nextState f = state := rfl
    exact ⟨(x.transition_state f).trans hstate, fun hne => hstate ▸ x.transition_of_not_free f (hstate ▸ hne)⟩
  · intro target a
    have htarget : x.targetFor f = target := x.targetFor_eq f
    have ha : rampToward f x.attenuation (x.targetFor f) = a := by rw [htarget]; rfl
    refine ⟨x.ramp_free f, fun hs hfull => ?_, fun hfree hn => ?_⟩
    · rw [x.ramp_of_not_free f (by simp [hs]), ha, if_pos ⟨hs, hfull⟩]
      rfl
    · rw [x.ramp_of_not_free f hfree, ha, htarget, if_neg fun h => hn.elim (absurd h.1) (absurd h.2)]
  · intro z
    obtain ⟨hx, hx1, hy, hy1⟩ := zoneOf_bounds margin hx hx1 hy hy1
    exact ⟨rfl, rfl, rfl, rfl, hx, hx1, hy, hy1, rfl⟩
  · intro free held
    have hheld : ∀ id, held id ↔ id ∈ heldIds g.tracks := fun id => mem_heldIds.symm
    refine ⟨g.createTrack_oversize, g.createTrack_dropped, fun i hc ho hi hlow => ?_⟩
    obtain ⟨n, hn, hpick, hnot, hbelow⟩ := pickId_of_free hi g.idCounter
    refine ⟨n, hn, fun h => hnot ((hheld _).1 h), fun m hm => (hheld _).2 (hbelow m hm), ?_⟩
    rw [g.createTrack_created hc ho (freeSlot_eq_some.2 ⟨hi, hlow⟩), hpick]
    rfl
  · intro dims letGo finished
    have hletGo : Track.letGo = letGo := funext fun x => by
      obtain ⟨state, _⟩ := x
      cases state <;> rfl
    refine ⟨?_, fun hmap => ⟨hotComponents map,
      matchPairs f.gate g.tracks.toList (((hotComponents map).take 8).map (candidateOf f.maxBlob)), ?_⟩⟩
    · rw [Glare.complete_stopped, Glare.publish_eq, hletGo]
    intro hot touch first record candidates distance updated unmatched g1
    have htouch : touch = touches map := funext₂ fun a b =>
      propext (and_congr_right fun _ => and_congr_right fun _ => adjacent_iff.symm)
    have hdistance : ∀ i j, distance i j = distanceAt f.gate g.tracks.toList candidates i j := fun i j =>
      (distanceAt_eq ..).symm
    refine ⟨fun a => isHot_iff_mem_component hmap, hotComponents_nodup hmap, nil_not_mem_hotComponents map,
      fun c a b hc ha _ => htouch ▸ mem_hotComponents_iff hmap hc ha, hotComponents_pairwise hmap,
      fun i j hm => ?_, fun i j i' j' => matchPairs_disjoint, fun i j d hd => ?_, ?_⟩
    · rw [hdistance]
      exact distanceAt_of_match hm
    · rw [hdistance] at hd
      simp only [hdistance]
      exact matchPairs_greedy hd
    · have hupdated : (g.tracks.mapIdx fun i x => updateTrack (matchPairs f.gate g.tracks.toList candidates)
          candidates i x) = updated :=
        congrArg (fun update => g.tracks.mapIdx update) (funext₂ fun i x => updateTrack_eq _ candidates i x)
      have hassociate : (g.formCandidates f.maxBlob map).associate f.gate overload = g1 := by
        unfold g1
        rw [← hupdated]
        rfl
      rw [Glare.complete_running, Glare.publish_eq, hassociate]
  · intro latched total
    split
    next hlatch =>
      have hfields : s.trackerFields side = trackerGlareFallback := State.trackerFields_fallback side hlatch
      have hover : s.overloadedBy side map = false := by rw [State.overloadedBy, hfields]; rfl
      have hrun : trackingRuns s side trackerGlareFallback = false := by simp [trackingRuns, trackerGlareFallback]
      refine ⟨?_, rfl, rfl⟩
      rw [State.trackerCompletion_eq, hover, hfields, hrun]
      rfl
    next ws hlatch =>
      intro field f overloaded running s1
      have hfields : s.trackerFields side = f := State.trackerFields_table side hlatch
      have hover : s.overloadedBy side map = overloaded := by rw [State.overloadedBy, hfields]; rfl
      have hrun : trackingRuns s side f = running := by
        rw [trackingRuns, show f.fromTable = true from rfl, Bool.and_true]
      rw [State.trackerCompletion_eq, hover, hfields, hrun]
      rfl
  · have hs : s.trackersSound := fun x => by cases x <;> assumption
    have hs' := step_trackersSound hs ht hstep
    exact ⟨hs' .left, hs' .right⟩

end Sys2Proof.Machine
end

section
/-! SUPPORT. FORCE_LIGHT (R109, R208). -/

namespace Sys2Proof.Machine

theorem forceOf_code (f : Force) : forceOf (BitVec.ofNat 8 f.code) = some f := by cases f <;> rfl

/-- A force setting other than AUTO sets the day/night state (R109). -/
def Force.dayNight (f : Force) (current : DayNight) : DayNight :=
  match f with
  | .auto => current
  | .day => .day
  | .night => .night

theorem Light.forced_eq (l : Light) (f : Force) :
    l.forced f = { l with force := f, dayNight := f.dayNight l.dayNight, phase := .idle } := by cases f <;> rfl

theorem State.modLight_takeCommand (s : State) (link side : Side) (f : Light → Light) :
    (s.takeCommand link).modLight side f = (s.modLight side f).takeCommand link := by
  cases link <;> cases side <;> rfl

theorem State.takeCommand_light (s : State) (link side : Side) :
    ((s.takeCommand link).unit side).light = (s.unit side).light := by cases link <;> cases side <;> rfl

theorem State.modLight_const (s : State) (side : Side) (f : Light → Light) :
    s.modLight side f = s.modLight side fun _ => f (s.unit side).light := by cases side <;> rfl

/-- Two changes of a light controller that agree on what it is. -/
theorem State.modLight_congr {s : State} {side : Side} {f g : Light → Light}
    (h : f (s.unit side).light = g (s.unit side).light) : s.modLight side f = s.modLight side g := by
  rw [State.modLight_const, h, ← State.modLight_const]

/-- R208: a FORCE_LIGHT that is taken sets the light controller of its side and answers the two settings. -/
theorem exec_forceLight {s : State} {t : Time} {link : Side} {tag : Byte} {side : Side} {f : Force}
    (h : s.ready link ⟨tag, 0x21, [BitVec.ofNat 8 side.code, BitVec.ofNat 8 f.code]⟩) :
    let dayNight := f.dayNight (s.unit side).light.dayNight
    exec (.forceLight t link tag [BitVec.ofNat 8 side.code, BitVec.ofNat 8 f.code]) s =
      .next (((s.advance t).modLight side fun l =>
        { l with force := f, dayNight := dayNight, phase := .idle }).answered link
          ⟨tag, 0x21, [BitVec.ofNat 8 side.code, BitVec.ofNat 8 f.code]⟩ .ok
          [BitVec.ofNat 8 (dayNight.code + 16 * f.code)]) := by
  intro dayNight
  have hmod : ((s.advance t).modLight side fun l => l.forced f) =
      (s.advance t).modLight side fun l => { l with force := f, dayNight := dayNight, phase := .idle } :=
    State.modLight_congr (by rw [State.advance_unit, Light.forced_eq])
  have hbyte : byte1 (lightByte ((s.unit side).light.forced f)) = [BitVec.ofNat 8 (dayNight.code + 16 * f.code)] := by
    rw [Light.forced_eq]
    rfl
  have hcommand := command_ready (t := t) h (forceLightBody [BitVec.ofNat 8 side.code, BitVec.ofNat 8 f.code])
  simp only [forceLightBody, sideOf_code, forceOf_code, State.takeCommand_light, State.advance_unit,
    State.modLight_takeCommand, respond_take, hmod, hbyte] at hcommand
  exact hcommand

/-- Settles O15: the command sets the force setting and the day/night state that it implies. -/
theorem forceLightSetsTheState : Obligations.ForceLightSetsTheState := by
  unfold Obligations.ForceLightSetsTheState
  intro t link tag side f s c dayNight hready
  exact exec_forceLight hready

end Sys2Proof.Machine
end

section
/-! SUPPORT. The last byte of a packet (R179, R181, R183), and telemetry (R100, R102, R184). -/

namespace Sys2Proof.Machine

/-! ### A complete packet -/

section
variable {tag kind lo hi : Byte} {param : List Byte}

theorem packetFields_eq :
    packetFields (4 + param.length) (tag :: kind :: param ++ [lo] ++ [hi]) = ⟨tag, kind, param⟩ := by
  simp [packetFields]

/-- The packet check compares the two CRC bytes, low byte first, with the CRC of the bytes before them (R183). -/
theorem packetOk_iff :
    packetOk (4 + param.length) (BitVec.ofNat 8 (4 + param.length) :: (tag :: kind :: param ++ [lo] ++ [hi])) = true ↔
      crc16 (BitVec.ofNat 8 (4 + param.length) :: tag :: kind :: param) = hi ++ lo := by
  have hsplit : BitVec.ofNat 8 (4 + param.length) :: (tag :: kind :: param ++ [lo] ++ [hi]) =
      (BitVec.ofNat 8 (4 + param.length) :: tag :: kind :: param) ++ [lo, hi] := by simp
  have hlength : 4 + param.length - 1 = (BitVec.ofNat 8 (4 + param.length) :: tag :: kind :: param).length := by
    simp only [List.length_cons]
    omega
  rw [packetOk, hsplit, hlength, List.drop_left, List.take_left, numberOf_pair, beq_iff_eq, BitVec.toNat_inj, eq_comm]

/-- The last byte of a packet whose CRC agrees ends its reception and brings it to its receiver (R181, R183, R184). -/
theorem State.takeByte_last {s : State} {link : Side} {due : Option Nat}
    (hreceiver : (s.unit link).channel.receiver = .collecting (4 + param.length) (tag :: kind :: param ++ [lo]) due)
    (hcrc : crc16 (BitVec.ofNat 8 (4 + param.length) :: tag :: kind :: param) = hi ++ lo) :
    s.takeByte link hi = (s.setReceiver link .waitLen).routePacket link ⟨tag, kind, param⟩ := by
  have hfull : ¬ (tag :: kind :: param ++ [lo] ++ [hi]).length < 4 + param.length := by
    simp only [List.length_append, List.length_cons, List.length_nil]
    omega
  simp only [State.takeByte, hreceiver, State.collect, if_neg hfull, State.checkPacket, if_pos (packetOk_iff.2 hcrc),
    packetFields_eq]

theorem exec_returnLaneByte_taken {s : State} (h : s.clearing = false) (t : Time) (link : Side) (b : Byte) :
    exec (.returnLaneByte t link b) s = .next ((s.advance t).takeByte link b) := by
  have hexec : exec (.returnLaneByte t link b) s = execReturnLaneByte t link b s := rfl
  simp [hexec, execReturnLaneByte, h]

end

/-! ### Telemetry -/

section
variable (s : State) (link : Side) (tag : Byte)

theorem State.routePacket_telemetry (x0 x1 status : Byte) :
    s.routePacket link ⟨tag, 0x70, [x0, x1, status]⟩ = s.telemetry link (x1 ++ x0).toNat status := by
  rw [← numberOf_pair]
  rfl

/-- A telemetry packet with a PARAM of another length than 3 is a framing error (R184). -/
theorem State.routePacket_telemetry_length {param : List Byte} (h : param.length ≠ 3) :
    s.routePacket link ⟨tag, 0x70, param⟩ = s.raise (.disp link .returnFraming) [1] := by
  have htelemetry : (0x70 : Byte) = telemetryKind := rfl
  simp only [State.routePacket, if_pos htelemetry]
  split
  next => exact absurd rfl h
  next => rfl

theorem State.latch_clock (k : Kind) (offs : List Nat) : (s.latch k offs).2.clock = s.clock :=
  (s.latch_onlySide .left k offs).clock

end

/-- Settles O47: the last byte brings the packet to the light controller, whose timeout is that of its latch. -/
theorem telemetrySetsTheAmbient : Obligations.TelemetrySetsTheAmbient := by
  unfold Obligations.TelemetrySetsTheAmbient
  intro t link tag lo hi param due s hclearing _ hreceiver hcrc s1 done
  have hdone : done = .next (s1.routePacket link ⟨tag, 0x70, param⟩) := by
    rw [← State.advance_unit s t link] at hreceiver
    exact (exec_returnLaneByte_taken hclearing t link hi).trans (congrArg _ (State.takeByte_last hreceiver hcrc))
  refine ⟨fun hlength => ?_, fun x0 x1 status hparam => ?_⟩
  · rw [hdone, State.routePacket_telemetry_length s1 link tag hlength]
  · intro latched ms s2 s3
    have hms : (latched.1.map fun ws => bits (wordAt ws 2) 16 13).getD Config.fallbackTelemetryMs = ms := by
      unfold ms
      cases latched.1 <;> rfl
    have htelemetry : s1.telemetry link (x1 ++ x0).toNat status =
        s3.level (.disp link .displayReported) (status != 0) [status.zeroExtend 32] := by
      unfold s3 s2
      rw [← hms, ← s1.latch_clock .timing [2]]
      rfl
    rw [hdone, hparam, State.routePacket_telemetry, htelemetry]
    by_cases hstatus : status = 0
    · rw [if_pos hstatus, hstatus]
      rfl
    · rw [if_neg hstatus, State.level, if_pos (bne_iff_ne.2 hstatus)]

end Sys2Proof.Machine
end

section
/-! SUPPORT. Qualification at a completion (R103 to R107). -/

namespace Sys2Proof.Machine

/-! ### A latch that meets no error -/

section
variable {s : State} {k : Kind} {offs : List Nat}

theorem State.readWord_clean {b : Bank} {off : Nat} (h : (s.tables.word k b off).errors = 0) :
    s.readWord k b off = (some (s.tables.word k b off).data, s) := by simp [State.readWord, h]

theorem State.readWords_clean {b : Bank} (h : ∀ off ∈ offs, (s.tables.word k b off).errors = 0) :
    s.readWords k b offs = (.words (s.tables.corrected k b offs), s) := by
  induction offs with
  | nil => rfl
  | cons off rest ih =>
    simp only [State.readWords, State.readWord_clean (h off (List.mem_cons_self ..)),
      ih fun o ho => h o (List.mem_cons_of_mem _ ho)]
    rfl

/-- A latch that meets no error takes the words and changes nothing. -/
theorem State.latch_clean (hu : s.tables.usable k = true)
    (h : ∀ off ∈ offs, (s.tables.word k (s.tables.kind k).live off).errors = 0) :
    s.latch k offs = (some (s.tables.corrected k (s.tables.kind k).live offs), s) := by
  rw [State.latch, if_pos hu, State.readWords_clean h]

end

/-! ### One completion -/

theorem mem_qualWords {i : Nat} : i ∈ [0, 1, 2, 3] ↔ i < 4 := by
  simp only [List.mem_cons, List.not_mem_nil, or_false]
  omega

section
variable {s : State} {side : Side} (scene : Nat)

theorem State.lightCompletion_not_usable (h : s.tables.usable .light = false) :
    s.lightCompletion side scene = s.modLight side fun l => { l with phase := .idle } := by
  simp only [State.lightCompletion, State.latch_not_usable h]

/-- A double error in a word of qualification makes the phase IDLE, as a LIGHT that is not usable does. -/
theorem State.lightCompletion_double
    (h : ∃ i, i < 4 ∧ 2 ≤ (s.tables.word .light (s.tables.kind .light).live i).errors) :
    ((s.lightCompletion side scene).unit side).light = { (s.unit side).light with phase := .idle } := by
  have hread : (s.latch .light [0, 1, 2, 3]).1 = none := by
    refine State.latch_fallback (by decide) (.inr ?_)
    obtain ⟨i, hi, herr⟩ := h
    exact ⟨i, mem_qualWords.2 hi, herr⟩
  simp only [State.lightCompletion, State.modLight_unit_same, State.latch_unit, hread]

theorem State.lightCompletion_clean (hu : s.tables.usable .light = true)
    (h : ∀ i, i < 4 → (s.tables.word .light (s.tables.kind .light).live i).errors = 0) :
    s.lightCompletion side scene = s.modLight side fun l =>
      if l.force = .auto then
        qualify (qualFieldsOf (s.tables.corrected .light (s.tables.kind .light).live [0, 1, 2, 3])) l scene s.clock
      else { l with phase := .idle } := by
  have hread := State.latch_clean hu fun i hi => h i (mem_qualWords.1 hi)
  simp only [State.lightCompletion, hread]

end

/-- The table of R105 to R107. -/
theorem qualify_eq (f : QualFields) (l : Light) (scene clock : Nat) :
    qualify f l scene clock =
      match l.phase with
      | .idle => if oppositeHolds f l scene then { l with phase := .debouncing clock } else l
      | .debouncing start =>
        if clock < start + f.debounceMs * 1000 then l
        else if oppositeHolds f l scene then { l with phase := .validating clock } else { l with phase := .idle }
      | .validating start =>
        if oppositeHolds f l scene = false then { l with phase := .idle }
        else if clock < start + f.validateMs * 1000 then l
        else { l with dayNight := l.dayNight.other, phase := .idle } := by
  unfold qualify
  cases l.phase with
  | idle => rfl
  | debouncing => rfl
  | validating => simp only [Bool.not_eq_true']

end Sys2Proof.Machine
end

section
/-! SUPPORT. The backlight at an output frame start (R111 to R114). -/

namespace Sys2Proof.Machine

/-! ### The level and its target -/

theorem slew_eq (level target : Nat) :
    slew level target = if level < target then min target (level + 8) else max target (level - 8) := by
  simp only [slew, Config.backlightStep]
  split
  · rfl
  · split <;> omega

theorem slew_le (level target : Nat) : slew level target ≤ level + 8 := by
  rw [slew_eq]
  split <;> omega

theorem le_slew (level target : Nat) : level ≤ slew level target + 8 := by
  rw [slew_eq]
  split <;> omega

section
variable (l : Light) (f : BacklightFields) (clock : Nat)

theorem holdOver_iff :
    holdOver l f clock = true ↔ l.holdPassed = true ∨ l.stale.getD 0 + f.holdMs * 1000 ≤ clock := by
  simp [holdOver]

/-- Every target is under the night cap (R112, R113). -/
theorem backlightTarget_eq :
    backlightTarget l f clock =
      capped l f (if l.known then interpolate f.curve l.ambient
        else if holdOver l f clock then f.fallbackLevel else l.backlight) := by
  unfold backlightTarget
  split
  · rfl
  · split <;> rfl

theorem Light.outputStart_frame (read : Option BacklightFields) :
    { l.outputStart read clock with backlight := l.backlight, holdPassed := l.holdPassed } = l := by
  cases read <;> rfl

/-- The level moves by one slew, whatever its target is (R114). -/
theorem Light.outputStart_backlight (read : Option BacklightFields) :
    ∃ target, (l.outputStart read clock).backlight = slew l.backlight target := by
  cases read with
  | none => exact ⟨Config.backlightDefault, rfl⟩
  | some f => exact ⟨backlightTarget l f clock, rfl⟩

/-- While the ambient is unknown, a passed hold time is kept (R113). -/
theorem Light.outputStart_holdPassed (h : l.known = false) :
    (l.outputStart (some f) clock).holdPassed = true ↔
      l.holdPassed = true ∨ l.stale.getD 0 + f.holdMs * 1000 ≤ clock := by
  rw [← holdOver_iff]
  simp [Light.outputStart, h]

end

/-! ### The latch of LIGHT comes after the composer's work -/

section
variable (s : State) (side : Side)

@[simp] theorem State.reportLost_tables (v : View) (cause : Option Word) :
    (s.reportLost v cause).tables = s.tables := by cases cause <;> rfl

@[simp] theorem State.outputView_tables (v : View) : (s.outputView v).tables = s.tables := by
  simp [State.outputView_eq]

/-- The composer's work leaves the kinds that it does not latch alone (R59). -/
theorem State.afterViews_other_kind {j : Kind} (hview : j ≠ .view) (hpolicy : j ≠ .policy) (htiming : j ≠ .timing) :
    (s.afterViews side).tables.kind j = s.tables.kind j ∧
      ∀ b off, off < j.size → (s.afterViews side).tables.word j b off = s.tables.word j b off := by
  have hviewWords : ∀ off ∈ composerViewWords side, off < Kind.view.size := by cases side <;> decide
  have hpolicyWords : ∀ off ∈ (List.range 16).map (2 + ·), off < Kind.policy.size := by decide
  have htimingWords : ∀ off ∈ composerTimingWords side, off < Kind.timing.size := by cases side <;> decide
  obtain ⟨hkind1, hword1⟩ := s.latch_other_kind hview hviewWords
  obtain ⟨hkind2, hword2⟩ := (s.latchLimits side).latch_other_kind hpolicy hpolicyWords
  obtain ⟨hkind3, hword3⟩ := ((s.latchLimits side).latchPolicy side).latch_other_kind htiming htimingWords
  have hlimits : (s.latchLimits side).tables = (s.latch .view (composerViewWords side)).2.tables :=
    State.modUnit_tables ..
  have hlatched : ((s.latchLimits side).latchPolicy side).tables =
      ((s.latchLimits side).latch .policy ((List.range 16).map (2 + ·))).2.tables := State.modComposer_tables ..
  have hafter : (s.afterViews side).tables =
      (((s.latchLimits side).latchPolicy side).latch .timing (composerTimingWords side)).2.tables := by
    rw [State.afterViews, State.outputView_tables, State.outputView_tables, State.afterLatches_eq]
  rw [hafter]
  rw [← hlatched] at hkind2 hword2
  rw [← hlimits] at hkind1 hword1
  exact ⟨hkind3.trans (hkind2.trans hkind1), fun b off h =>
    (hword3 b off h).trans ((hword2 b off h).trans (hword1 b off h))⟩

/-- The state in which the light controller latches LIGHT. -/
def State.beforeBacklight : State :=
  (s.afterViews side).modComposer side fun c => c.outputStart (s.latchedTiming side) (s.afterViews side).clock

/-- The LIGHT fields of the backlight, as latched; none for the fallback (R111). -/
def State.backlightRead : Option BacklightFields :=
  ((s.beforeBacklight side).latch .light backlightWords).1.map backlightFieldsOf

/-- What an output frame start does to the light controller of its side. -/
theorem State.takeOutputStart_light :
    ((s.takeOutputStart side).unit side).light =
      (s.unit side).light.outputStart (s.backlightRead side) s.clock := by
  have hstart : s.takeOutputStart side = ((s.beforeBacklight side).backlightStart side).captureTrailer side :=
    s.takeOutputStart_eq side
  have hclock : ((s.beforeBacklight side).latch .light backlightWords).2.clock = s.clock := by
    rw [State.latch_clock, State.beforeBacklight, State.modComposer_clock, (s.afterViews_onlySide side).clock]
  have hlight : ((s.beforeBacklight side).unit side).light = (s.unit side).light := by
    obtain ⟨main, wide, policy, hunit⟩ := s.afterViews_unit side
    rw [State.beforeBacklight, State.modComposer_unit_same, hunit]
  obtain ⟨trailer, htrailer⟩ := ((s.beforeBacklight side).backlightStart side).captureTrailer_unit side
  rw [hstart, htrailer, State.backlightRead, ← hclock, ← hlight]
  simp only [State.backlightStart, State.modLight_unit_same, State.latch_unit]

theorem State.beforeBacklight_light :
    (s.beforeBacklight side).tables.usable .light = s.tables.usable .light ∧
      (s.beforeBacklight side).tables.kind .light = s.tables.kind .light ∧
      ∀ b off, off < 24 → (s.beforeBacklight side).tables.word .light b off = s.tables.word .light b off := by
  obtain ⟨hkind, hword⟩ := s.afterViews_other_kind side (j := .light) (by decide) (by decide) (by decide)
  have htables : (s.beforeBacklight side).tables = (s.afterViews side).tables := State.modComposer_tables ..
  rw [htables, TableStore.usable, hkind]
  exact ⟨rfl, rfl, hword⟩

end

theorem backlightWords_nodup : backlightWords.Nodup := by decide

theorem mem_backlightWords {i : Nat} : i ∈ backlightWords ↔ 4 ≤ i ∧ i ≤ 22 := by
  simp only [backlightWords, List.cons_append, List.nil_append, List.mem_cons, List.mem_map, List.mem_range]
  constructor
  · rintro (h | h | ⟨k, hk, h⟩) <;> omega
  · intro ⟨hlow, hhigh⟩
    by_cases h6 : 6 ≤ i
    · exact .inr (.inr ⟨i - 6, by omega⟩)
    · omega

section
variable {s : State} {side : Side}

/-- A LIGHT that is not usable, or holds a double error, gives the fallback (R111, R160). -/
theorem State.backlightRead_fallback
    (h : s.tables.usable .light = false ∨
      ∃ i, 4 ≤ i ∧ i ≤ 22 ∧ 2 ≤ (s.tables.word .light (s.tables.kind .light).live i).errors) :
    s.backlightRead side = none := by
  obtain ⟨husable, hkind, hword⟩ := s.beforeBacklight_light side
  have hlatch := State.latch_fallback (s := s.beforeBacklight side) (k := .light) backlightWords_nodup (by
    rw [husable, hkind]
    refine h.imp_right ?_
    rintro ⟨i, hlow, hhigh, herr⟩
    exact ⟨i, mem_backlightWords.2 ⟨hlow, hhigh⟩, by rwa [hword _ _ (by omega)]⟩)
  rw [State.backlightRead, hlatch]
  rfl

/-- The backlight fields that the words of LIGHT spell (R178). -/
def lightFieldsIn (word : Nat → Word) : BacklightFields where
  curve := (List.range 17).map fun k => (bits (word (6 + k)) 0 16, bits (word (6 + k)) 16 10)
  nightCap := bits (word 4) 0 10
  fallbackLevel := bits (word 4) 16 10
  holdMs := bits (word 5) 0 13

theorem backlightFieldsOf_eq (ws : List (Nat × Word)) : backlightFieldsOf ws = lightFieldsIn (wordAt ws) := rfl

theorem lightFieldsIn_congr {v w : Nat → Word} (h : ∀ i, 4 ≤ i → i ≤ 22 → v i = w i) :
    lightFieldsIn v = lightFieldsIn w := by
  have hcurve : ∀ k ∈ List.range 17, v (6 + k) = w (6 + k) := fun k hk => by
    have hk := List.mem_range.1 hk
    exact h _ (by omega) (by omega)
  simp only [lightFieldsIn, h 4 (by omega) (by omega), h 5 (by omega) (by omega)]
  congr 1
  exact List.map_congr_left fun k hk => by rw [hcurve k hk]

/-- A usable LIGHT gives its words, as corrected (R111). -/
theorem State.backlightRead_corrected (hu : s.tables.usable .light = true)
    (h : ∀ i, i < 24 → (s.tables.word .light (s.tables.kind .light).live i).errors < 2) :
    s.backlightRead side = some (lightFieldsIn fun i => (s.tables.word .light (s.tables.kind .light).live i).data) := by
  obtain ⟨husable, hkind, hword⟩ := s.beforeBacklight_light side
  have hlatch := State.latch_corrected (s := s.beforeBacklight side) (husable.trans hu) backlightWords_nodup
    fun i hi => by
      have hrange := mem_backlightWords.1 hi
      rw [hkind, hword _ _ (by omega)]
      exact h i (by omega)
  rw [State.backlightRead, hlatch, hkind, Option.map_some, backlightFieldsOf_eq]
  refine congrArg some (lightFieldsIn_congr fun i hlow hhigh => ?_)
  rw [wordAt_corrected _ _ _ (mem_backlightWords.2 ⟨hlow, hhigh⟩), hword _ _ (by omega)]

end

/-- An output frame start that is due answers a state whose light controller has had its start. -/
theorem exec_outputFrameStart_light {s : State} {side : Side} {t : Time}
    (hdue : (s.unit side).composer.nextOut ≤ (s.advance t).clock) :
    ∃ s', exec (.outputFrameStart t side) s = .next s' ∧
      (s'.unit side).light = (s.unit side).light.outputStart ((s.advance t).backlightRead side) s'.clock := by
  have hclock : ((s.advance t).takeOutputStart side).clock = (s.advance t).clock :=
    ((s.advance t).takeOutputStart_onlySide side).clock
  refine ⟨(s.advance t).takeOutputStart side, exec_outputFrameStart_due t hdue, ?_⟩
  rw [State.takeOutputStart_light, State.advance_unit, hclock]

/-- Settles O52: qualification is that of the four words read, and the backlight slews to the target of the fields
latched after the composer's work. -/
theorem theLightControllerQualifiesAndDims : Obligations.TheLightControllerQualifiesAndDims := by
  unfold Obligations.TheLightControllerQualifiesAndDims
  intro side s word l
  refine ⟨fun scene => State.lightCompletion_not_usable scene, fun scene => State.lightCompletion_double scene,
    fun scene hu hclean => ?_, fun t hdue => ?_⟩
  · intro holds turned
    have hholds : oppositeHolds (qualFieldsOf (s.tables.corrected .light (s.tables.kind .light).live [0, 1, 2, 3]))
        (s.unit side).light scene = holds := rfl
    rw [State.lightCompletion_clean scene hu hclean]
    refine State.modLight_congr ?_
    simp only [qualify_eq, hholds, ne_eq, ite_not]
    rfl
  · obtain ⟨s', hexec, hlight⟩ := exec_outputFrameStart_light hdue
    refine ⟨s', hexec, ?_⟩
    intro l'
    have hl' : l' = l.outputStart ((s.advance t).backlightRead side) s'.clock := hlight
    obtain ⟨level, hlevel⟩ := l.outputStart_backlight s'.clock ((s.advance t).backlightRead side)
    rw [← hl'] at hlevel
    refine ⟨?_, hlevel ▸ slew_le .., hlevel ▸ le_slew .., fun hfallback => ?_, fun hu hcorrected => ?_⟩
    · rw [hl']
      exact l.outputStart_frame ..
    · rw [hl', State.backlightRead_fallback (s := s.advance t) hfallback]
      exact slew_eq ..
    · intro cap curve passed target
      have hread : (s.advance t).backlightRead side = some (lightFieldsIn word) :=
        State.backlightRead_corrected (s := s.advance t) hu hcorrected
      have hpassed : (holdOver l (lightFieldsIn word) s'.clock = true) = passed := propext (holdOver_iff ..)
      have htarget : backlightTarget l (lightFieldsIn word) s'.clock = target := by
        rw [backlightTarget_eq]
        simp only [hpassed]
        rfl
      refine ⟨?_, fun hunknown => ?_⟩
      · rw [hl', hread, ← slew_eq, ← htarget]
        rfl
      · rw [hl', hread]
        exact l.outputStart_holdPassed _ _ hunknown

end Sys2Proof.Machine
end

section
/-! SUPPORT. What a step can do to the fault manager (chapter 6), said once: a sequence of reports, of the executor's
and the timers' changes, and of resets. An invariant of the fault manager that each of these keeps is kept by every step. -/

namespace Sys2Proof.Machine

/-! ### The changes of the fault manager -/

/-- The fault managers that its operations lead to from one. -/
inductive FaultManager.Leads (a : FaultManager) : FaultManager → Prop
  | start : Leads a a
  | active {fm : FaultManager} (t : Time) (d : Descriptor) (w : List Word) (h : Leads a fm) :
      Leads a (fm.becameActive t d w)
  | inactive {fm : FaultManager} (d : Descriptor) (h : Leads a fm) : Leads a (fm.becameInactive d)
  | happened {fm : FaultManager} (clock : Nat) (d : Descriptor) (w : List Word) (h : Leads a fm) :
      Leads a (fm.happened clock d w)
  | pulseEnd {fm : FaultManager} (clock : Nat) (d : Descriptor) (h : Leads a fm) : Leads a (fm.endPulse clock d)
  | holdOff {fm : FaultManager} (due : Option Nat) (h : Leads a fm) : Leads a { fm with holdOff := due }
  | clear {fm : FaultManager} (m : BitVec 51) (h : Leads a fm) : Leads a (fm.clear m)
  | enables {fm : FaultManager} (select value : BitVec 51) (hkeeps : clearsResetSeen select value = false)
      (h : Leads a fm) : Leads a (fm.setEnables select value)
  | removed {fm : FaultManager} (n : Nat) (h : Leads a fm) : Leads a (fm.removeRecords n)
  | softReset {fm : FaultManager} (h : Leads a fm) : Leads a fm.softReset
  | powerOn : Leads a State.reset.faults

/-- The fault manager of the state comes from another one. -/
def FaultsFrom (fm : FaultManager) (s : State) : Prop := fm.Leads s.faults

namespace FaultsFrom
variable {fm : FaultManager} {s s' : State}

theorem refl (s : State) : FaultsFrom s.faults s := .start

theorem congr (h : FaultsFrom fm s) (he : s'.faults = s.faults) : FaultsFrom fm s' := by
  unfold FaultsFrom
  rwa [he]

section
variable (h : FaultsFrom fm s)
include h

/-! ### State updates and reports -/

theorem activate (d : Descriptor) (w : List Word) : FaultsFrom fm (s.activate d w) := .active _ d w h

theorem deactivate (d : Descriptor) : FaultsFrom fm (s.deactivate d) := .inactive d h

theorem raise (d : Descriptor) (w : List Word) : FaultsFrom fm (s.raise d w) := .happened _ d w h

theorem level (d : Descriptor) (on : Bool) (w : List Word) : FaultsFrom fm (s.level d on w) := by
  cases on
  · exact h.deactivate d
  · exact h.activate d w

theorem setTables (ts : TableStore) : FaultsFrom fm { s with tables := ts } := h

theorem ite {c : Prop} [Decidable c] (h' : FaultsFrom fm s') : FaultsFrom fm (if c then s' else s) := by
  split <;> assumption

theorem modUnit (side : Side) (f : SideUnit → SideUnit) : FaultsFrom fm (s.modUnit side f) := h.congr (by simp)

theorem modIngest (side : Side) (f : Ingest → Ingest) : FaultsFrom fm (s.modIngest side f) := h.modUnit side _

theorem modComposer (side : Side) (f : Composer → Composer) : FaultsFrom fm (s.modComposer side f) := h.modUnit side _

theorem modChannel (side : Side) (f : Link → Link) : FaultsFrom fm (s.modChannel side f) := h.modUnit side _

theorem modViews (side : Side) (f : ViewUnit → ViewUnit) : FaultsFrom fm (s.modViews side f) := h.modUnit side _

theorem modView (v : View) (f : ViewUnit → ViewUnit) : FaultsFrom fm (s.modView v f) := h.modUnit v.side _

theorem setPass (side : Side) (p : Pass) : FaultsFrom fm (s.setPass side p) := h.modUnit side _

theorem modRings (side : Side) (f : Ring → Ring) : FaultsFrom fm (s.modRings side f) := h.modViews side _

theorem freeFilling (side : Side) : FaultsFrom fm (s.freeFilling side) := h.modRings side _

theorem clearRecovery (side : Side) : FaultsFrom fm (s.clearRecovery side) := h.modViews side _

theorem setFrame (side : Side) (f : Option FrameRecord) : FaultsFrom fm (s.setFrame side f) := h.modIngest side _

/-! ### Moves -/

theorem readWord (k : Kind) (b : Bank) (off : Nat) : FaultsFrom fm (s.readWord k b off).2 := by
  rcases s.readWord_cases k b off with ⟨-, e⟩ | ⟨-, e⟩ | ⟨-, e⟩ <;> rw [e]
  · exact h
  · exact (h.setTables _).raise _ _
  · dsimp only
    split
    · unfold FaultsFrom
      rw [State.corruptKind_faults]
      split
      · exact .active _ _ _ h
      · exact h
    · exact h

theorem moves (m : Moves s s') : FaultsFrom fm s' := by
  induction m with
  | start => exact h
  | unit side f _ _ ih => exact ih.modUnit side f
  | latest _ _ ih => exact ih.congr rfl
  | skew _ _ ih => exact ih.congr rfl
  | activate d w _ _ ih => exact ih.activate d w
  | deactivate d _ _ ih => exact ih.deactivate d
  | raise d w _ ih => exact ih.raise d w
  | readWord k b off _ ih => exact ih.readWord k b off

/-! ### Ends of a frame -/

theorem reportConcealed (side : Side) (f : FrameRecord) : FaultsFrom fm (s.reportConcealed side f) :=
  h.ite (h.raise _ _)

theorem abandonFramePass (side : Side) : FaultsFrom fm (s.abandonFramePass side) := by
  unfold State.abandonFramePass
  split
  next => exact h
  next => exact h.setPass side _
  next =>
    split
    next => exact h.setPass side _
    next => exact h

theorem discardFrame (side : Side) (f : FrameRecord) : FaultsFrom fm (s.discardFrame side f) :=
  (((h.freeFilling side).clearRecovery side).abandonFramePass side).setFrame side _

theorem abortFrame (side : Side) (f : FrameRecord) (reason : AbortReason) :
    FaultsFrom fm (s.abortFrame side f reason) :=
  (((((h.raise _ _).reportConcealed side f).freeFilling side).clearRecovery side).abandonFramePass side).setFrame side _

theorem abortAndReask (side : Side) (f : FrameRecord) (reason : AbortReason) :
    FaultsFrom fm (s.abortAndReask side f reason) := (h.abortFrame side f reason).moves (.reaskSlot side .start)

theorem endBefore (side : Side) : FaultsFrom fm (s.endBefore side) := by
  unfold State.endBefore
  split
  next => exact h
  next f _ => exact (h.abortFrame side f .noEnd).ite (h.setFrame side _)

/-! ### Frame starts (R5, R6, R21, R23, R24) -/

theorem measurePeriod (side : Side) (t : IngestTiming) : FaultsFrom fm (s.measurePeriod side t) := by
  unfold State.measurePeriod
  split
  next => exact h
  next => exact ((h.modIngest side _).level _ _ _).modComposer side _

theorem stampFrameStart (side : Side) : FaultsFrom fm (s.stampFrameStart side) := by
  cases side
  · exact h.moves (.latest _ (.modIngest .left _ rfl .start))
  · exact h.moves (.skew _ (.modIngest .right _ rfl .start))

theorem beginPass (side : Side) : FaultsFrom fm (s.beginPass side) := by
  unfold State.beginPass
  have hlatch := h.moves (.latchCopies side .start)
  generalize s.latchCopies side = latched at hlatch ⊢
  exact (hlatch.setPass side _).modRings side _

theorem takeFrameStart (side : Side) : FaultsFrom fm (s.takeFrameStart side) := by
  unfold State.takeFrameStart
  dsimp only
  have hlatch := (h.endBefore side).moves (.latchIngest side .start)
  generalize (s.endBefore side).latchIngest side = latched at hlatch ⊢
  obtain ⟨⟨p, t⟩, s2⟩ := latched
  generalize hs4 : State.stampFrameStart _ side = s4
  have hstamped : FaultsFrom fm s4 :=
    hs4 ▸ (((hlatch.modIngest side _).deactivate (.cam side .silent)).measurePeriod side t).stampFrameStart side
  have hframe := hstamped.setFrame side (some (newFrame s4 side p t))
  exact (hframe.ite (hframe.beginPass side)).moves (.patternFrameStart side (.reaskSlot side .start))

/-! ### The embedded line (R7 to R13) -/

theorem passCounter (side : Side) (counter : Byte) : FaultsFrom fm (s.passCounter side counter) := by
  unfold State.passCounter
  refine modIngest ?_ side _
  split
  next => exact h
  next => exact (h.raise _ _).ite h

theorem consumeSlot (side : Side) (f : FrameRecord) : FaultsFrom fm (s.consumeSlot side f) := by
  have hfree := (h.freeFilling side).modIngest side fun i => { i with slotHeld := false }
  unfold State.consumeSlot
  dsimp only
  split
  next => exact (hfree.setPass side _).setFrame side _
  next => exact ((hfree.moves (.latchCopies side .start)).setPass side _).setFrame side _

theorem routeFrame (side : Side) (f : FrameRecord) (counter : Byte) (testPattern : Bool) :
    FaultsFrom fm (s.routeFrame side f counter testPattern) := by
  have haccept : FaultsFrom fm (s.acceptFrame side f counter) := (h.modRings side _).setFrame side _
  have hpattern : FaultsFrom fm (s.consumePattern side f) :=
    ((h.freeFilling side).abandonFramePass side).setFrame side _
  exact (haccept.ite (h.consumeSlot side f)).ite (((h.raise _ _).discardFrame side _).ite hpattern)

theorem settleFrame (side : Side) (f : FrameRecord) (codes : List Code) :
    FaultsFrom fm (s.settleFrame side f codes) := by
  have hcheck : FaultsFrom fm (s.checkCamera side f (reportId codes) (reportByte codes 4)) :=
    (h.level _ _ _).level _ _ _
  exact ((hcheck.passCounter side _).routeFrame side _ _ _).ite ((hcheck.activate _ _).discardFrame side _)

/-! ### Active lines (R14, R15) -/

theorem takeRows (side : Side) (w : WorkingCopies) (rows : List (Nat × List Developed)) :
    FaultsFrom fm (rows.foldl (fun s' row => s'.takeRow side w row) s) := by
  induction rows generalizing s with
  | nil => exact h
  | cons row rest ih => exact ih (h.modUnit side _)

theorem developLine (side : Side) (y : Nat) (codes : List Code) : FaultsFrom fm (s.developLine side y codes) := by
  unfold State.developLine
  split
  next => exact h
  next p _ => exact (h.takeRows side p.copies _).modUnit side _
  next =>
    split
    next => exact h.setPass side _
    next => exact h

theorem takeLine (side : Side) (f : FrameRecord) (good : Bool) (codes : List Code) :
    FaultsFrom fm (s.takeLine side f good codes) := by
  have hframe := h.setFrame side (some (f.takeLine good (passedOn f good codes)))
  exact (hframe.ite (hframe.developLine side _ _)).ite (h.abortAndReask side _ _)

theorem lineArrives (side : Side) (index : Nat) (good : Bool) (codes : List Code) :
    FaultsFrom fm (s.lineArrives side index good codes) := by
  unfold State.lineArrives
  split
  next => exact h
  next f _ =>
    have habort : ∀ reason, FaultsFrom fm (s.abortAndReask side f reason) := h.abortAndReask side f
    split
    case h_1 | h_2 => exact h
    case h_3 => exact ((h.settleFrame side f codes).ite (habort _)).ite (habort _)
    case h_4 | h_5 | h_6 => exact ((h.takeLine side f good codes).ite (habort _)).ite (habort _)

/-! ### Completions (R17, R20, R22) -/

theorem detectFrozen (side : Side) (f : FrameRecord) : FaultsFrom fm (s.detectFrozen side f) := by
  unfold State.detectFrozen
  dsimp only
  generalize hs1 : s.modIngest side _ = s1
  have hrun : FaultsFrom fm s1 := hs1 ▸ h.modIngest side _
  have hcleared : ∀ b : Bool, FaultsFrom fm (if b then s1 else s1.deactivate (.cam side .frozen)) := fun b =>
    (hrun.deactivate _).ite hrun
  exact (hcleared _).ite ((hcleared _).activate _ _)

theorem completeViews (side : Side) (f : FrameRecord) : FaultsFrom fm (s.completeViews side f) := by
  refine h.ite ?_
  have hviews := h.modViews side ViewUnit.complete
  unfold State.publish
  split
  next => exact hviews.moves (.lightCompletion side _ (.trackerCompletion side _ (.setPass side _ .start)))
  next => exact hviews

theorem tellSequencer (side : Side) (f : FrameRecord) : FaultsFrom fm (s.tellSequencer side f) := by
  unfold State.tellSequencer
  split
  next => exact h.moves (.acceptedCompletion side _ .start)
  next => exact h.moves (.patternCompletion side _ .start)
  next =>
    unfold State.endPaced
    split
    next =>
      split
      next => exact h.moves (.referenceDone side _ .start)
      next => exact h
    next => exact h
  next => exact h

theorem completeFrame (side : Side) (f : FrameRecord) : FaultsFrom fm (s.completeFrame side f) := by
  unfold State.completeFrame
  dsimp only
  generalize hs2 : State.modIngest _ side _ = s2
  have hend : FaultsFrom fm s2 :=
    hs2 ▸ (((h.setFrame side none).deactivate _).reportConcealed side f).modIngest side _
  exact (((hend.ite (hend.detectFrozen side f)).completeViews side f).modComposer side _).tellSequencer side f

theorem takeFrameEnd (side : Side) : FaultsFrom fm (s.takeFrameEnd side) := by
  unfold State.takeFrameEnd
  split
  next => exact h
  next f _ => exact ((h.abortAndReask side f .short).ite (h.completeFrame side f)).ite (h.setFrame side _)

/-! ### The camera link (R2, R3) -/

theorem emptyLatest (side : Side) : FaultsFrom fm (s.emptyLatest side) := by
  cases side
  · exact h.moves (.latest none .start)
  · exact h

theorem loseLock (side : Side) : FaultsFrom fm (s.loseLock side) := by
  have hend := (((h.modIngest side fun i => { i with link := .noSignal }).activate (.cam side .linkLost) []).endBefore
    side).moves (.clearTracker side .start)
  have hwithdrawn := (hend.emptyLatest side).modIngest side fun i => { i with patternPending := false }
  exact (hwithdrawn.ite ((hwithdrawn.modIngest side _).moves (.beginImmediate side .start))).moves
    (.lockLossInRun side .start)

theorem gainLock (side : Side) : FaultsFrom fm (s.gainLock side) :=
  ((((h.modIngest side _).deactivate _).deactivate _).deactivate _).moves (.clearTracker side .start)

/-! ### The output composer (R55, R59) and DDR transfers (R54) -/

theorem outputView (v : View) : FaultsFrom fm (s.outputView v) := by
  have hlost : ∀ {a : State} (cause : Option Word), FaultsFrom fm a → FaultsFrom fm (a.reportLost v cause) := by
    rintro a (_ | w) ha
    · exact ha
    · exact ha.raise _ _
  exact (((hlost _ (h.modView v _)).modView v _).level _ _ _).modView v _

theorem latchOutput (side : Side) : FaultsFrom fm (s.afterLatches side) := by
  have hlimits : FaultsFrom fm (s.latchLimits side) := (h.moves (.latch .view _ .start)).modUnit side _
  have hpolicy : FaultsFrom fm ((s.latchLimits side).latchPolicy side) :=
    (hlimits.moves (.latch .policy _ .start)).modComposer side _
  rw [State.afterLatches_eq]
  exact hpolicy.moves (.latch .timing _ .start)

theorem captureTrailer (side : Side) : FaultsFrom fm (s.captureTrailer side) := by
  unfold State.captureTrailer
  exact (h.modChannel side _).modComposer side _

theorem takeOutputStart (side : Side) : FaultsFrom fm (s.takeOutputStart side) := by
  have hviews : FaultsFrom fm (s.afterViews side) :=
    ((h.latchOutput side).outputView side.mainView).outputView side.wideView
  rw [State.takeOutputStart_eq]
  exact ((hviews.modComposer side _).moves (.backlightStart side .start)).captureTrailer side

theorem writeFails (v : View) : FaultsFrom fm (s.writeFails v) := h.ite ((h.modView v _).raise _ _)

theorem regionRead (v : View) (ok : Bool) : FaultsFrom fm (s.regionRead v ok) := by
  unfold State.regionRead
  split
  next => exact ((h.modView v _).raise _ _).ite (h.modView v _)
  next => exact h

/-! ### The command channel -/

theorem acceptCommand (link : Side) (c : Command) : FaultsFrom fm (s.acceptCommand link c) :=
  ((h.modChannel link _).raise _ _).ite (h.modChannel link _)

theorem routePacket (link : Side) (c : Command) : FaultsFrom fm (s.routePacket link c) := by
  refine (h.acceptCommand link c).ite ?_
  split
  next => exact h.moves (.telemetry link _ _ .start)
  next => exact h.raise _ _

theorem takeByte (link : Side) (b : Byte) : FaultsFrom fm (s.takeByte link b) := by
  unfold State.takeByte
  split
  next => exact (h.raise _ _).ite (h.modChannel link _)
  next =>
    have hwait := h.modChannel link fun l => { l with receiver := .waitLen }
    exact ((hwait.raise _ _).ite (hwait.routePacket link _)).ite (h.modChannel link _)

theorem packetTimedOut (link : Side) : FaultsFrom fm (s.packetTimedOut link) := by
  unfold State.packetTimedOut
  split
  next => exact h
  next => exact h.ite ((h.modChannel link _).raise _ _)

/-! ### The table store -/

theorem switchBanks (k : Kind) : FaultsFrom fm (s.switchBanks k) := by
  unfold State.switchBanks
  exact (h.setTables _).ite ((h.setTables _).deactivate _)

theorem resetOrigins (ws : List (Nat × Word)) : FaultsFrom fm (s.resetOrigins ws) :=
  have horigin : ∀ {a : State}, FaultsFrom fm a → ∀ v, FaultsFrom fm (a.modView v fun u => u.resetOrigin ws v) :=
    fun ha v => ha.modView v _
  horigin (horigin (horigin (horigin h .leftMain) .leftWide) .rightMain) .rightWide

theorem acceptedCommit (k : Kind) (crc : Nat) : FaultsFrom fm (acceptedCommit k crc s).2 := by
  have hread := h.moves (.readWords k (s.tables.kind k).live.other (List.range k.size) .start)
  unfold Machine.acceptedCommit
  split
  next hr => rwa [hr] at hread
  next ws s1 hr =>
    rw [hr] at hread
    split
    next => exact hread
    next =>
      split
      next => exact hread
      next => exact (hread.switchBanks k).ite ((hread.switchBanks k).resetOrigins ws)

theorem acceptedRead (k : Kind) (shadow : Bool) (off count : Nat) :
    FaultsFrom fm (acceptedRead k shadow off count s).2 := by
  have hread := h.moves
    (.readWords k (namedBank s.tables k shadow) (List.range' off (min count (k.size - off))) .start)
  unfold Machine.acceptedRead
  split
  next hr => rwa [hr] at hread
  next hr => rwa [hr] at hread

theorem copyWord (k : Kind) (c : SyncCopy) : FaultsFrom fm (s.copyWord k c) := (h.readWord k _ c.next).setTables _

theorem syncStep (k : Kind) : FaultsFrom fm (s.syncStep k) := by
  unfold State.syncStep
  split
  next => exact h
  next c _ => exact h.ite (h.copyWord k c)

theorem finishSync (k : Kind) (fuel : Nat) : FaultsFrom fm (s.finishSync k fuel) := by
  induction fuel generalizing s with
  | zero => exact h
  | succ n ih =>
    unfold State.finishSync
    split
    next => exact h
    next c _ => exact ih (h.copyWord k c)

theorem scrub : FaultsFrom fm s.scrub := by
  unfold State.scrub
  split
  next => exact h
  next =>
    dsimp only
    split
    next => exact h.setTables _
    next => exact (h.setTables _).readWord _ _ _

theorem scrubIfDue : FaultsFrom fm s.scrubIfDue := by
  unfold State.scrubIfDue
  split
  next => exact h
  next => exact h.ite (h.setTables _).scrub

end

end FaultsFrom

end Sys2Proof.Machine
end

section
/-! SUPPORT. What the body of a command can do, said once (chapter 10), with the guards under which it does it. -/

namespace Sys2Proof.Machine

/-- The states that the body of a command, taken from a link, leads to. -/
inductive CommandEffect (link : Side) (s : State) : State → Prop
  | nothing : CommandEffect link s s
  | clearSuperseded : CommandEffect link s s.clearSuperseded
  | goRun (hmode : s.mode ≠ .run) (husable : missingBits s.tables = 0) : CommandEffect link s s.goRun
  | goConfig (hmode : s.mode ≠ .config) : CommandEffect link s s.goConfig
  | resetPending : CommandEffect link s { s with executor := .resetPending link }
  | setTimeout (ms : Nat) : CommandEffect link s (s.modChannel link fun l => { l with timeoutMs := ms })
  | load (k : Kind) (off : Nat) (data : List Byte) (hoff : off < k.size) (hlocked : (s.tables.kind k).locked = false)
      (hsync : (s.tables.kind k).sync = none) : CommandEffect link s (acceptedLoad k off data s).2
  | commit (k : Kind) (crc : Nat) (hlocked : (s.tables.kind k).locked = false) (hsync : (s.tables.kind k).sync = none) :
      CommandEffect link s (acceptedCommit k crc s).2
  | read (k : Kind) (shadow : Bool) (off count : Nat) (hoff : off < k.size) :
      CommandEffect link s (acceptedRead k shadow off count s).2
  | lock (k : Kind) : CommandEffect link s { s with tables := s.tables.lock k }
  | pan (v : View) (x y : Nat) : CommandEffect link s (acceptedPan v x y s).2
  | force (side : Side) (f : Force) : CommandEffect link s (s.modLight side fun l => l.forced f)
  | clearDrops (side : Side) : CommandEffect link s
      (s.modGlare side fun g => { g with droppedComponents := 0, droppedCandidates := 0 })
  | clearEvents (m : BitVec 51) : CommandEffect link s (s.clearEvents m)
  | setEnables (select value : BitVec 51) (hkeeps : clearsResetSeen select value = false) :
      CommandEffect link s { s with faults := s.faults.setEnables select value }
  | removeRecords (n : Nat) : CommandEffect link s { s with faults := s.faults.removeRecords n }
  | startRun (side : Side) (selection : PerStep Bool) (hmode : s.mode ≠ .config)
      (hrun : (s.unit side).sequencer.run = none) : CommandEffect link s (s.startRun side selection)
  | endRun (side : Side) : CommandEffect link s (s.endRun side)
  | clearFailFlags (side : Side) : CommandEffect link s
      (s.modSequencer side fun q => { q with failFlags := ⟨false, false, false, false, false⟩ })

section
variable {link : Side} (param : List Byte) (s : State)

theorem withNone_effect {f : Reply × State} (hf : CommandEffect link s f.2) :
    CommandEffect link s (withNone param s f).2 := withNone_state .nothing hf

theorem withSide_effect {f : Side → Reply × State} (hf : ∀ side, CommandEffect link s (f side).2) :
    CommandEffect link s (withSide param s f).2 := withSide_state .nothing hf

theorem echoBody_effect : CommandEffect link s (echoBody param s).2 := by
  rw [echoBody_state]
  exact .nothing

theorem enterRunBody_effect : CommandEffect link s (enterRunBody param s).2 := by
  refine withNone_effect param s ?_
  split
  next => exact .nothing
  next hmode =>
    split
    next => exact .nothing
    next husable => exact .goRun hmode (not_not.1 husable)

theorem enterConfigBody_effect : CommandEffect link s (enterConfigBody param s).2 := by
  refine withNone_effect param s ?_
  split
  next => exact .nothing
  next hmode => exact .goConfig hmode

theorem setChannelBody_effect : CommandEffect link s (setChannelBody link param s).2 := by
  unfold setChannelBody
  split
  next => exact .setTimeout _
  next => exact .nothing

theorem loadTableBody_effect : CommandEffect link s (loadTableBody param s).2 := by
  unfold loadTableBody
  split
  next =>
    split
    next => exact .nothing
    next =>
      split
      next => exact .nothing
      next hfields =>
        split
        next => exact .nothing
        next hlocked =>
          split
          next => exact .nothing
          next hsync =>
            exact .load _ _ _ (by omega) (Bool.eq_false_iff.2 hlocked) (Option.not_isSome_iff_eq_none.1 hsync)
  next => exact .nothing

theorem commitTableBody_effect : CommandEffect link s (commitTableBody param s).2 := by
  unfold commitTableBody
  split
  next =>
    split
    next => exact .nothing
    next =>
      split
      next => exact .nothing
      next hlocked =>
        split
        next => exact .nothing
        next hsync => exact .commit _ _ (Bool.eq_false_iff.2 hlocked) (Option.not_isSome_iff_eq_none.1 hsync)
  next => exact .nothing

theorem readTableBody_effect : CommandEffect link s (readTableBody param s).2 := by
  unfold readTableBody
  split
  next =>
    split
    next =>
      split
      next => exact .nothing
      next hfields =>
        split
        next => exact .nothing
        next => exact .read _ _ _ _ (by omega)
    next => exact .nothing
  next => exact .nothing

theorem lockTableBody_effect : CommandEffect link s (lockTableBody param s).2 := by
  unfold lockTableBody
  split
  next =>
    split
    next => exact .nothing
    next => exact .lock _
  next => exact .nothing

theorem setPanBody_effect : CommandEffect link s (setPanBody param s).2 := by
  unfold setPanBody
  split
  next =>
    split
    next => exact .nothing
    next => exact .pan _ _ _
  next => exact .nothing

theorem forceLightBody_effect : CommandEffect link s (forceLightBody param s).2 := by
  unfold forceLightBody
  split
  next =>
    split
    next => exact .force _ _
    next => exact .nothing
  next => exact .nothing

theorem clearEventsBody_effect : CommandEffect link s (clearEventsBody param s).2 := by
  unfold clearEventsBody
  split
  next => exact .nothing
  next =>
    split
    next => exact .nothing
    next =>
      split
      next => exact .nothing
      next => exact .clearEvents _

theorem setEventEnableBody_effect : CommandEffect link s (setEventEnableBody param s).2 := by
  unfold setEventEnableBody
  split
  next => exact .nothing
  next =>
    split
    next =>
      split
      next => exact .nothing
      next hfields => exact .setEnables _ _ (Bool.eq_false_iff.2 fun hclears => hfields (.inr hclears))
    next => exact .nothing

theorem readLogBody_effect : CommandEffect link s (readLogBody param s).2 := by
  unfold readLogBody
  split
  next =>
    split
    next => exact .nothing
    next => exact .removeRecords _
  next => exact .nothing

theorem startSelftestBody_effect : CommandEffect link s (startSelftestBody param s).2 := by
  unfold startSelftestBody
  split
  next =>
    split
    next =>
      unfold startChecked
      dsimp only
      split
      next => exact .nothing
      next hmode =>
        split
        next => exact .nothing
        next hrun =>
          split
          next => exact .nothing
          next => exact .startRun _ _ hmode (Option.not_isSome_iff_eq_none.1 hrun)
    next => exact .nothing
  next => exact .nothing

end

end Sys2Proof.Machine
end

section
/-! SUPPORT. Every step changes the fault manager by its own operations alone, each of which keeps it sound (R124, R136,
R140). -/

namespace Sys2Proof.Machine

/-! ### The commands -/

namespace FaultsFrom
variable {fm : FaultManager} {s : State} (h : FaultsFrom fm s)
include h

theorem stopSide (side : Side) : FaultsFrom fm (s.stopSide side) := by
  unfold State.stopSide
  exact (((h.modIngest side _).setPass side _).modRings side _).moves
    (.endRun side (.modLight side _ (.clearTracker side .start)))

theorem clearEvents (m : BitVec 51) : FaultsFrom fm (s.clearEvents m) :=
  .holdOff _ (.clear m (h.moves (.latch .policy [0] .start)))

theorem commandEffect {link : Side} {s' : State} (he : CommandEffect link s s') : FaultsFrom fm s' := by
  cases he with
  | nothing => exact h
  | clearSuperseded => exact (h.modViews .left _).modViews .right _
  | goRun =>
    have hrun : FaultsFrom fm { s with mode := .run } := h
    exact (hrun.modViews .left _).modViews .right _
  | goConfig =>
    have hconfig : FaultsFrom fm { s with mode := .config } := h
    exact (hconfig.stopSide .left).stopSide .right
  | resetPending => exact h
  | setTimeout ms => exact h.modChannel link _
  | load k off data => exact h
  | commit k crc => exact h.acceptedCommit k crc
  | read k shadow off count => exact h.acceptedRead k shadow off count
  | lock k => exact h
  | pan v x y => exact (h.moves (.latch .view (panWords v) .start)).modView v _
  | force side f => exact h.modUnit side _
  | clearDrops side => exact h.modUnit side _
  | clearEvents m => exact h.clearEvents m
  | setEnables select value hkeeps => exact .enables select value hkeeps h
  | removeRecords n => exact .removed n h
  | startRun side selection => exact h.moves (.startRun side selection .start)
  | endRun side => exact h.moves (.endRun side .start)
  | clearFailFlags side => exact h.modUnit side _

theorem runCommand (link : Side) (c : Command) {body : State → Reply × State}
    (hbody : ∀ a : State, CommandEffect link a (body a).2) : FaultsFrom fm (s.runCommand link c body) := by
  have hdeliver : FaultsFrom fm (s.deliver link c) := h.ite (h.acceptCommand link c)
  have htake : FaultsFrom fm ((s.deliver link c).takeCommand link) := hdeliver.modChannel link _
  unfold State.runCommand
  exact hdeliver.ite ((htake.commandEffect (hbody _)).modChannel link _)

/-! ### The soft reset (R140, R177) -/

theorem finishSyncs (kinds : List Kind) : FaultsFrom fm (kinds.foldl (fun s1 k => s1.finishSync k k.size) s) := by
  induction kinds generalizing s with
  | nil => exact h
  | cons k rest ih => exact ih (h.finishSync k k.size)

theorem standCamera (side : Side) : FaultsFrom fm (s.standCamera side) := h.ite (h.activate _ _)

theorem standDisplay (side : Side) : FaultsFrom fm (s.standDisplay side) := by
  have hlost : FaultsFrom fm
      (if (s.unit side).light.known then s else s.activate (.disp side .telemetryLost) []) := (h.activate _ _).ite h
  exact (hlost.activate _ _).ite hlost

theorem takeStanding : FaultsFrom fm s.takeStanding := by
  have hsides := ((((h.raise (.core .resetSeen) [resetSoft]).standCamera .left).standCamera .right).standDisplay
    .left).standDisplay .right
  unfold State.takeStanding State.standTables
  split
  next => exact hsides
  next => exact hsides.activate _ _

theorem latchSilentDue : FaultsFrom fm s.latchSilentDue.2 := h.moves (.latch .timing [2] .start)

theorem performSoftReset : FaultsFrom fm s.performSoftReset := by
  have hsync : FaultsFrom fm s.finishSyncs := h.finishSyncs allKinds
  have hlatched := hsync.latchSilentDue.latchSilentDue.moves (.latch .view [0, 8, 16, 24] .start)
  unfold State.performSoftReset
  generalize s.finishSyncs.latchSilentDue = left at hlatched ⊢
  obtain ⟨leftDue, s1⟩ := left
  dsimp only at hlatched ⊢
  generalize s1.latchSilentDue = right at hlatched ⊢
  obtain ⟨rightDue, s2⟩ := right
  dsimp only at hlatched ⊢
  generalize s2.latch .view [0, 8, 16, 24] = view at hlatched ⊢
  exact takeStanding (.softReset hlatched)

end FaultsFrom

/-! ### Every step -/

/-- A step leads to its next fault manager by the operations of the fault manager. -/
theorem exec_faultsFrom (s : State) (i : Instr) : ∃ s', exec i s = .next s' ∧ FaultsFrom s.faults s' := by
  have h : ∀ t, FaultsFrom s.faults (s.advance t) := fun t => (FaultsFrom.refl s).congr (s.advance_faults t)
  have command : ∀ t link kind tag param {body : State → Reply × State},
      (∀ a : State, CommandEffect link a (body a).2) →
        ∃ s', s.command t link kind tag param body = .next s' ∧ FaultsFrom s.faults s' :=
    fun t link _ _ _ _ hb => ⟨_, rfl, (h t).runCommand link _ hb⟩
  cases i with
  | powerOn => exact ⟨_, rfl, .powerOn⟩
  | tableClearEnd t => exact ⟨_, rfl, (h t).ite ((h t).congr rfl)⟩
  | softResetInstant t =>
    refine ⟨_, rfl, ?_⟩
    split
    next => exact (h t).ite (h t).performSoftReset
    next => exact h t
  | linkLost t side => exact ⟨_, rfl, (h t).ite ((h t).loseLock side)⟩
  | linkLock t side => exact ⟨_, rfl, (h t).ite ((h t).gainLock side)⟩
  | frameStart t side => exact ⟨_, rfl, (h t).ite ((h t).takeFrameStart side)⟩
  | embeddedLine t side good codes => exact ⟨_, rfl, (h t).ite ((h t).lineArrives side 0 good codes)⟩
  | activeLine t side index good codes => exact ⟨_, rfl, (h t).ite ((h t).lineArrives side index good codes)⟩
  | frameEnd t side => exact ⟨_, rfl, (h t).ite ((h t).takeFrameEnd side)⟩
  | referencePassEnd t side =>
    refine ⟨_, rfl, ?_⟩
    split
    next =>
      split
      next => exact (h t).ite ((h t).moves (.referenceDone side _ .start))
      next => exact h t
    next => exact h t
  | silentTimerExpiry t side => exact ⟨_, rfl, (h t).ite (((h t).modIngest side _).activate _ _)⟩
  | frameStartStampExpiry t side =>
    have hstamp := (h t).modIngest side fun i => { i with prevStart := expireStamp (s.advance t).now i.prevStart }
    refine ⟨_, rfl, ?_⟩
    cases side
    · exact hstamp.moves (.latest _ .start)
    · exact hstamp
  | completionStampExpiry t side => exact ⟨_, rfl, (h t).modComposer side _⟩
  | ddrWriteFail t v => exact ⟨_, rfl, (h t).writeFails v⟩
  | regionReadDone t v ok => exact ⟨_, rfl, (h t).regionRead v ok⟩
  | outputFrameStart t side => exact ⟨_, rfl, (h t).ite ((h t).takeOutputStart side)⟩
  | returnLaneByte t link b => exact ⟨_, rfl, ((h t).takeByte link b).ite (h t)⟩
  | packetTimeout t link => exact ⟨_, rfl, (h t).packetTimedOut link⟩
  | ambientTimerExpiry t side => exact ⟨_, rfl, (h t).ite ((h t).moves (.ambientLost side .start))⟩
  | pulseExpiry t d => exact ⟨_, rfl, .pulseEnd _ d (h t)⟩
  | holdOffExpiry t => exact ⟨_, rfl, (h t).ite (.holdOff none (h t))⟩
  | selftestStepTimeout t side => exact ⟨_, rfl, (h t).ite ((h t).moves (.stepTimeout side .start))⟩
  | storeWriteDone t side ok => exact ⟨_, rfl, (h t).moves (.writeDone side ok .start)⟩
  | storeReadDone t side data => exact ⟨_, rfl, (h t).moves (.readDone side data .start)⟩
  | syncWordCopy t k => exact ⟨_, rfl, (h t).syncStep k⟩
  | scrubVisit t upsets => exact ⟨_, rfl, ((h t).setTables _).scrubIfDue⟩
  | echo t link tag param => exact command _ _ _ _ _ (echoBody_effect param)
  | getStatus t link tag param => exact command _ _ _ _ _ fun a => withNone_effect param a .clearSuperseded
  | enterRun t link tag param => exact command _ _ _ _ _ (enterRunBody_effect param)
  | enterConfig t link tag param => exact command _ _ _ _ _ (enterConfigBody_effect param)
  | softReset t link tag param => exact command _ _ _ _ _ fun a => withNone_effect param a .resetPending
  | setChannel t link tag param => exact command _ _ _ _ _ (setChannelBody_effect param)
  | loadTable t link tag param => exact command _ _ _ _ _ (loadTableBody_effect param)
  | commitTable t link tag param => exact command _ _ _ _ _ (commitTableBody_effect param)
  | readTable t link tag param => exact command _ _ _ _ _ (readTableBody_effect param)
  | tableStatus t link tag param => exact command _ _ _ _ _ fun a => withNone_effect param a .nothing
  | lockTable t link tag param => exact command _ _ _ _ _ (lockTableBody_effect param)
  | setPan t link tag param => exact command _ _ _ _ _ (setPanBody_effect param)
  | forceLight t link tag param => exact command _ _ _ _ _ (forceLightBody_effect param)
  | getGlare t link tag param => exact command _ _ _ _ _ fun a => withSide_effect param a .clearDrops
  | getTiming t link tag param => exact command _ _ _ _ _ fun a => withNone_effect param a .nothing
  | getEvents t link tag param => exact command _ _ _ _ _ fun a => withNone_effect param a .nothing
  | clearEvents t link tag param => exact command _ _ _ _ _ (clearEventsBody_effect param)
  | setEventEnable t link tag param => exact command _ _ _ _ _ (setEventEnableBody_effect param)
  | readLog t link tag param => exact command _ _ _ _ _ (readLogBody_effect param)
  | startSelftest t link tag param => exact command _ _ _ _ _ (startSelftestBody_effect param)
  | abortSelftest t link tag param => exact command _ _ _ _ _ fun a => withSide_effect param a .endRun
  | getSelftest t link tag param => exact command _ _ _ _ _ fun a => withSide_effect param a fun _ => .nothing
  | clearSelftest t link tag param => exact command _ _ _ _ _ fun a => withSide_effect param a .clearFailFlags
  | badKindCommand t link tag kind param =>
    simp only [exec, execBadKindCommand]
    split
    next => exact ⟨_, rfl, h t⟩
    next => exact command _ _ _ _ _ fun _ => .nothing

theorem step_faultsFrom {s s' : State} (hstep : step s = .next s') : FaultsFrom s.faults s' := by
  unfold step at hstep
  split at hstep
  next =>
    cases hstep
    exact .refl s
  next i rest _ =>
    obtain ⟨s1, hexec, hfaults⟩ := exec_faultsFrom { s with pending := rest } i
    rw [hexec] at hstep
    cases hstep
    exact hfaults

/-! ### Soundness (R124, R136) -/

/-- The selected enables take their values, the others stay (R214). -/
@[simp] theorem FaultManager.setEnables_inSet (fm : FaultManager) (select value : BitVec 51) (d : Descriptor) :
    inSet (fm.setEnables select value).enables d = if inSet select d then inSet value d else inSet fm.enables d := by
  have hor : inSet (fm.setEnables select value).enables d =
      (inSet fm.enables d && !inSet select d || inSet value d && inSet select d) := by
    simp [FaultManager.setEnables, inSet, d.index.isLt]
  rw [hor]
  cases inSet select d <;> simp

/-- An allowed SET_EVENT_ENABLE keeps the enable of RESET_SEEN (R124). -/
theorem FaultManager.setEnables_sound {fm : FaultManager} (h : fm.sound) {select value : BitVec 51}
    (hkeeps : clearsResetSeen select value = false) : (fm.setEnables select value).sound := by
  obtain ⟨hlength, hsequence, henable⟩ := h
  refine ⟨hlength, hsequence, ?_⟩
  rw [FaultManager.setEnables_inSet]
  split
  next hselect => simpa [clearsResetSeen, hselect] using hkeeps
  next => exact henable

/-- A soft reset empties the log and keeps the enables (R140). -/
theorem FaultManager.softReset_sound {fm : FaultManager} (h : fm.sound) : fm.softReset.sound :=
  ⟨Nat.zero_le 32, fun i r hr => by simp [FaultManager.softReset] at hr, h.2.2⟩

theorem FaultManager.initial_sound : State.reset.faults.sound := by
  refine ⟨by decide, fun i r hr => ?_, by decide⟩
  have hi : i < 5 := (List.getElem?_eq_some_iff.1 hr).1
  interval_cases i <;> cases hr <;> decide

theorem FaultManager.Leads.sound {a fm : FaultManager} (h : a.Leads fm) (ha : a.sound) : fm.sound := by
  induction h with
  | start => exact ha
  | active t d w _ ih => exact FaultManager.becameActive_sound ih t d w
  | inactive d _ ih => exact FaultManager.becameInactive_sound ih d
  | happened clock d w _ ih => exact FaultManager.happened_sound ih clock d w
  | pulseEnd clock d _ ih =>
    unfold FaultManager.endPulse
    split
    next => exact FaultManager.sound_of_eq ih rfl rfl rfl
    next => exact ih
  | holdOff due _ ih => exact FaultManager.sound_of_eq ih rfl rfl rfl
  | clear m _ ih => exact FaultManager.sound_of_eq ih rfl rfl rfl
  | enables select value hkeeps _ ih => exact FaultManager.setEnables_sound ih hkeeps
  | removed n _ ih => exact FaultManager.removeRecords_sound ih n
  | softReset _ ih => exact FaultManager.softReset_sound ih
  | powerOn => exact FaultManager.initial_sound

/-- Settles O56: a step changes the fault manager by its operations alone, and each of them keeps it sound. -/
theorem everyStepKeepsTheFaultManagerSound : Obligations.EveryStepKeepsTheFaultManagerSound := by
  unfold Obligations.EveryStepKeepsTheFaultManagerSound
  exact fun _ _ hsound hstep => FaultManager.Leads.sound (step_faultsFrom hstep) hsound

end Sys2Proof.Machine
end

section
/-! SUPPORT. The commands on the fault manager: CLEAR_EVENTS, SET_EVENT_ENABLE and READ_LOG (R126, R213 to R215). -/

namespace Sys2Proof.Machine

/-! ### Descriptor maps (R211) -/

/-- The number that the bytes of a number spell. -/
theorem numberOf_bytes (x n : Nat) :
    numberOf ((List.range n).map fun i => BitVec.ofNat 8 (x / 256 ^ i)) = x % 256 ^ n := by
  induction n generalizing x with
  | zero => simp [numberOf, Nat.mod_one]
  | succ n ih =>
    have hrest : ∀ i, x / 256 ^ (i + 1) = x / 256 / 256 ^ i := fun i => by
      rw [Nat.pow_succ', Nat.div_div_eq_div_mul]
    rw [List.range_succ_eq_map, List.map_cons, List.map_map, numberOf]
    simp only [Function.comp_def, Nat.succ_eq_add_one, hrest, ih]
    rw [Nat.pow_succ', Nat.mod_mul]
    simp

@[simp] theorem mapBytes_length (m : BitVec 51) : (mapBytes m).length = 7 := by simp [mapBytes]

/-- A set of descriptors is read back from its map. -/
@[simp] theorem mapOf_mapBytes (m : BitVec 51) : mapOf (mapBytes m) = some m := by
  have hm : m.toNat < 2 ^ 51 := m.isLt
  have hnumber : numberOf (mapBytes m) = m.toNat := by
    rw [mapBytes, numberOf_bytes, Nat.mod_eq_of_lt (by omega)]
  rw [mapOf, hnumber, if_pos hm, BitVec.ofNat_toNat, BitVec.setWidth_eq]

/-! ### A change of the fault manager while a command is carried out -/

/-- A change of the fault manager between taking a command and answering it is one of the state before. -/
theorem respond_setFaults (s : State) (link : Side) (c : Command) (st : Status) (p : List Byte) (fm : FaultManager) :
    ({ s.takeCommand link with faults := fm } : State).respond link c ⟨st, p⟩ =
      ({ s with faults := fm } : State).answered link c st p := by
  rw [← respond_take]
  cases link <;> rfl

@[simp] theorem State.takeCommand_faults (s : State) (link : Side) : (s.takeCommand link).faults = s.faults := by
  simp [State.takeCommand]

/-! ### CLEAR_EVENTS (R126, R129, R213) -/

theorem clearEventsBody_mapBytes {m : BitVec 51} (hm : m ≠ 0) (s : State) :
    clearEventsBody (mapBytes m) s = (⟨.ok, []⟩, s.clearEvents m) := by
  simp only [clearEventsBody, mapBytes_length, mapOf_mapBytes, ne_eq, not_true_eq_false, if_false, if_neg hm]

/-- The hold-off time that is latched, or the fallback's (R129). -/
def holdOffMs (read : Option (List (Nat × Word))) : Nat :=
  (read.map fun ws => bits (wordAt ws 0) 0 10).getD Config.fallbackHoldOffMs

theorem State.clearEvents_takeCommand (s : State) (link : Side) (m : BitVec 51) :
    (s.takeCommand link).clearEvents m =
      { (s.latch .policy [0]).2.takeCommand link with
        faults := ((s.latch .policy [0]).2.faults.clear m).startHoldOff (s.latch .policy [0]).2.clock
          (holdOffMs (s.latch .policy [0]).1) } := by
  unfold State.clearEvents
  rw [State.latch_takeCommand]
  cases link <;> rfl

/-- Settles O19: the latch changes places with the taking of the command, and the rest is a change of the fault
manager. -/
theorem clearEventsClearsFlagsAndHoldsOff : Obligations.ClearEventsClearsFlagsAndHoldsOff := by
  unfold Obligations.ClearEventsClearsFlagsAndHoldsOff
  intro t link tag m s hm c latched ms s1 hready
  have hms : holdOffMs latched.1 = ms := by
    simp only [holdOffMs, ms]
    cases latched.1 <;> rfl
  show s.command t link 0x31 tag c.param (clearEventsBody c.param) = _
  rw [command_ready hready, clearEventsBody_mapBytes hm, State.clearEvents_takeCommand, respond_setFaults, hms]
  rfl

/-! ### SET_EVENT_ENABLE (R124, R214) -/

theorem setEventEnableBody_mapBytes {select value : BitVec 51} (hselect : select ≠ 0)
    (hkeeps : clearsResetSeen select value = false) (s : State) :
    setEventEnableBody (mapBytes select ++ mapBytes value) s = acceptedEnable select value s := by
  have htake : (mapBytes select ++ mapBytes value).take 7 = mapBytes select :=
    List.take_left' (mapBytes_length select)
  have hdrop : (mapBytes select ++ mapBytes value).drop 7 = mapBytes value :=
    List.drop_left' (mapBytes_length select)
  have hrange : ¬ (select = 0 ∨ clearsResetSeen select value = true) := fun h =>
    h.elim hselect (by simp [hkeeps])
  simp only [setEventEnableBody, List.length_append, mapBytes_length, htake, hdrop, mapOf_mapBytes, ne_eq,
    Nat.reduceAdd, not_true_eq_false, if_false, if_neg hrange]

/-- Settles O20: the enables answered are those that the selected values leave. -/
theorem setEventEnableSetsTheSelectedEnables : Obligations.SetEventEnableSetsTheSelectedEnables := by
  unfold Obligations.SetEventEnableSetsTheSelectedEnables
  intro t link tag select value s hselect hkeeps c hready
  have hallowed : clearsResetSeen select value = false := by
    rw [clearsResetSeen, Bool.and_eq_false_imp]
    exact fun h => by rw [hkeeps h]; rfl
  refine ⟨(s.faults.setEnables select value).enables, fun d => s.faults.setEnables_inSet select value d, ?_⟩
  show s.command t link 0x32 tag c.param (setEventEnableBody c.param) = _
  rw [command_ready hready, setEventEnableBody_mapBytes hselect hallowed, acceptedEnable, respond_setFaults,
    State.takeCommand_faults]
  rfl

/-! ### READ_LOG (R137, R215) -/

theorem readLogBody_count {nb : Byte} (hlow : 1 ≤ nb.toNat) (hhigh : nb.toNat ≤ 4) (s : State) :
    readLogBody [nb] s =
      (⟨.ok, byte1 (s.faults.log.take nb.toNat).length ++ byte1 s.faults.lost ++
          (s.faults.log.take nb.toNat).flatMap FaultRecord.bytes⟩,
        { s with faults := s.faults.removeRecords nb.toNat }) := by
  simp only [readLogBody, if_neg (show ¬ (nb.toNat < 1 ∨ 4 < nb.toNat) by omega)]

/-- The bytes of a record, as R215 lists them. -/
theorem FaultRecord.bytes_eq (r : FaultRecord) :
    r.bytes =
      bytes2 r.sequence.toNat ++ bytes4 r.time.toNat ++
        [BitVec.ofNat 8 r.descriptor.source, BitVec.ofNat 8 r.descriptor.kind,
          (match r.descriptor.viewIndex with
            | some v => BitVec.ofNat 8 v
            | none => 0xFF),
          BitVec.ofNat 8 r.lost, BitVec.ofNat 8 r.detail.length] ++ r.detail.flatMap fun w => bytes4 w.toNat := by
  unfold FaultRecord.bytes
  cases r.descriptor.viewIndex <;> simp [byte1]

/-- Settles O21: the records answered are those taken from the head of the log. -/
theorem readLogRemovesTheOldestRecords : Obligations.ReadLogRemovesTheOldestRecords := by
  unfold Obligations.ReadLogRemovesTheOldestRecords
  intro t link tag nb s hlow hhigh c taken record hready
  have hrecord : FaultRecord.bytes = record := funext FaultRecord.bytes_eq
  show s.command t link 0x33 tag [nb] (readLogBody [nb]) = _
  rw [command_ready hready, readLogBody_count hlow hhigh, respond_setFaults, State.takeCommand_faults, hrecord]
  rfl

end Sys2Proof.Machine
end

section
/-! SUPPORT. What a report does to the fault manager, case by case (R119, R121, R123, R136). -/

namespace Sys2Proof.Machine

section
variable {fm : FaultManager} {d : Descriptor}

/-- A *became active* report that finds the copy active changes nothing (R119). -/
theorem FaultManager.becameActive_of_active (h : inSet fm.conditions d = true) (t : Time) (w : List Word) :
    fm.becameActive t d w = fm := if_pos h

/-- A *became active* report that finds the copy inactive sets it and is an occurrence (R119). -/
theorem FaultManager.becameActive_of_inactive (h : inSet fm.conditions d = false) (t : Time) (w : List Word) :
    fm.becameActive t d w = FaultManager.occur { fm with conditions := withD fm.conditions d } t d w :=
  if_neg (Bool.eq_false_iff.1 h)

theorem FaultManager.occur_eq (fm : FaultManager) (t : Time) (d : Descriptor) (w : List Word) :
    fm.occur t d w =
      if inSet fm.enables d = true ∧ inSet fm.flags d = false then
        FaultManager.append { fm with flags := withD fm.flags d } t d w
      else fm := by
  simp only [FaultManager.occur, Bool.and_eq_true, Bool.not_eq_true']

/-- An occurrence that sets no flag changes nothing (R123). -/
theorem FaultManager.occur_refused (h : ¬ (inSet fm.enables d = true ∧ inSet fm.flags d = false)) (t : Time)
    (w : List Word) : fm.occur t d w = fm := by rw [FaultManager.occur_eq, if_neg h]

/-- An occurrence that sets the flag is recorded while the log holds fewer than 32 records (R136). -/
theorem FaultManager.occur_recorded (h : inSet fm.enables d = true ∧ inSet fm.flags d = false)
    (hroom : fm.log.length < 32) (t : Time) (w : List Word) :
    fm.occur t d w =
      { fm with
        flags := withD fm.flags d
        log := fm.log ++ [⟨fm.nextSequence, t, d, w, fm.lost⟩]
        nextSequence := fm.nextSequence + 1
        lost := 0 } := by
  rw [FaultManager.occur_eq, if_pos h]
  exact if_pos hroom

/-- An occurrence that sets the flag and finds the log full is counted (R136). -/
theorem FaultManager.occur_lost (h : inSet fm.enables d = true ∧ inSet fm.flags d = false)
    (hfull : ¬ fm.log.length < 32) (t : Time) (w : List Word) :
    fm.occur t d w = { fm with flags := withD fm.flags d, lost := min (fm.lost + 1) 255 } := by
  rw [FaultManager.occur_eq, if_pos h]
  exact if_neg hfull

end

/-- Settles O38: a report sets or clears its condition copy, or starts its pulse, and what follows is one occurrence. -/
theorem reportsReachTheFaultManager : Obligations.ReportsReachTheFaultManager := by
  unfold Obligations.ReportsReachTheFaultManager
  intro d detail s fm occurrence
  have hoccurs : ∀ before : FaultManager, occurrence before (before.occur s.now d detail) := by
    intro before
    refine ⟨by simp, by simp, by simp, by simp, ?_⟩
    split
    next hset =>
      refine ⟨fun e => by rw [FaultManager.occur_inSet_flags, hset.1, Bool.and_true]; rfl, ?_⟩
      split
      next hroom => simp [FaultManager.occur_recorded hset hroom, State.now]
      next hfull => simp [FaultManager.occur_lost hset hfull]
    next hset => simp [FaultManager.occur_refused hset]
  refine ⟨fun hactive => ?_, fun hinactive => ?_, ?_, ?_⟩
  · rw [State.activate, FaultManager.becameActive_of_active hactive]
  · refine ⟨withD fm.conditions d, _, fun e => inSet_withD _ d e, hoccurs _, ?_⟩
    rw [State.activate, FaultManager.becameActive_of_inactive hinactive]
  · refine ⟨withoutD fm.conditions d, fun e => ?_, rfl⟩
    rw [inSet_withoutD]
    rfl
  · exact ⟨_, hoccurs _, rfl⟩

end Sys2Proof.Machine
end

section
/-! SUPPORT. Reactions (6.5): the strongest reaction of a view, the entry that decides, the table of R116 and R117, and
the policy that a composer latches. -/

namespace Sys2Proof.Machine

/-! ### The strongest reaction (R134) -/

theorem mem_allDescriptors (d : Descriptor) : d ∈ allDescriptors := List.mem_of_getElem? (allDescriptors_index d)

theorem Reaction.stronger_code (a b : Reaction) : (a.stronger b).code = max a.code b.code := by
  unfold Reaction.stronger
  split <;> omega

theorem Reaction.stronger_eq (a b : Reaction) : a.stronger b = a ∨ a.stronger b = b := by
  unfold Reaction.stronger
  split
  next => exact .inr rfl
  next => exact .inl rfl

/-- The strongest of some reactions is none of them weaker, and it is the first or one of the others. -/
theorem foldl_stronger (l : List Reaction) (a : Reaction) :
    (∀ r, r ∈ a :: l → r.code ≤ (l.foldl Reaction.stronger a).code) ∧ l.foldl Reaction.stronger a ∈ a :: l := by
  induction l generalizing a with
  | nil => simp
  | cons b rest ih =>
    obtain ⟨hmax, hmem⟩ := ih (a.stronger b)
    have hfirst := hmax _ (List.mem_cons_self ..)
    rw [Reaction.stronger_code] at hfirst
    rw [List.foldl_cons]
    refine ⟨fun r hr => ?_, ?_⟩
    · rcases List.mem_cons.1 hr with rfl | hr
      · omega
      · rcases List.mem_cons.1 hr with rfl | hr
        · omega
        · exact hmax r (List.mem_cons_of_mem _ hr)
    · rcases List.mem_cons.1 hmem with h | h
      · rw [h]
        rcases Reaction.stronger_eq a b with h' | h' <;> simp [h']
      · exact List.mem_cons_of_mem _ (List.mem_cons_of_mem _ h)

section
variable (fm : FaultManager) (policy : List PolicyEntry) (v : View)

/-- The reactions that count for a view are those to the active descriptors that concern it. -/
theorem mem_viewReactions {r : Reaction} :
    r ∈ (allDescriptors.filter fun d => fm.active d && d.concerns v).map (fun d => reactionTo policy d v) ↔
      ∃ d, (fm.active d = true ∧ d.concerns v = true) ∧ reactionTo policy d v = r := by
  simp [mem_allDescriptors]

theorem reactionTo_le_effectiveReaction {d : Descriptor} (h : fm.active d = true ∧ d.concerns v = true) :
    (reactionTo policy d v).code ≤ (effectiveReaction fm policy v).code :=
  (foldl_stronger _ .none).1 _ (List.mem_cons_of_mem _ ((mem_viewReactions fm policy v).2 ⟨d, h, rfl⟩))

theorem effectiveReaction_attained :
    (∃ d, (fm.active d = true ∧ d.concerns v = true) ∧ reactionTo policy d v = effectiveReaction fm policy v) ∨
      effectiveReaction fm policy v = .none :=
  (List.mem_cons.1 (foldl_stronger _ .none).2).symm.imp_left (mem_viewReactions fm policy v).1

end

/-! ### The reaction to one descriptor (R132, R133) -/

section
variable {policy : List PolicyEntry} {d : Descriptor} {v : View}

theorem reactionTo_default (h : ∀ e, e ∈ policy → e.hits d v = false) : reactionTo policy d v = d.defaultReaction := by
  have hfind : policy.find? (fun e => e.hits d v) = none := by
    rw [List.find?_eq_none]
    exact fun e he => by simp [h e he]
  rw [reactionTo, hfind]

theorem cappedAtWarn_iff : cappedAtWarn d = true ↔ d.kind = 0x11 ∨ d.kind = 0x0C ∨ d.kind = 0x0D := by
  simp [cappedAtWarn, or_assoc]

/-- The first entry that matches decides. -/
theorem reactionTo_first {before after : List PolicyEntry} {e : PolicyEntry} (h : policy = before ++ e :: after)
    (hbefore : ∀ x, x ∈ before → PolicyEntry.hits x d v = false) (he : e.hits d v = true) :
    reactionTo policy d v =
      if e.reaction = .degrade ∧ (d.kind = 0x11 ∨ d.kind = 0x0C ∨ d.kind = 0x0D) then .warn else e.reaction := by
  have hfind : policy.find? (fun x => x.hits d v) = some e :=
    List.find?_eq_some_iff_append.2 ⟨he, before, after, h, fun x hx => by simp [hbefore x hx]⟩
  rw [reactionTo, hfind]
  simp only [cappedAtWarn_iff]

theorem PolicyEntry.hits_iff (e : PolicyEntry) :
    e.hits d v = true ↔
      (e.source = none ∨ e.source = some d.source) ∧ d.kind &&& e.kindMask = e.kindValue &&& e.kindMask ∧
        (match e.select with
          | .main => v.isMain = true
          | .wide => v.isMain = false
          | .both => True) := by
  rw [PolicyEntry.hits, Bool.and_eq_true, Bool.and_eq_true, beq_iff_eq, and_assoc]
  refine and_congr ?_ (and_congr_right fun _ => ?_)
  · cases e.source <;> simp
  · cases e.select <;> simp [ViewSelect.includes]

theorem FaultManager.active_iff (fm : FaultManager) :
    fm.active d = true ↔ inSet fm.conditions d = true ∨ fm.pulses[d.index.val]'d.index.isLt ≠ none := by
  rw [FaultManager.active, Bool.or_eq_true, Option.isSome_iff_ne_none]

/-! ### The table of descriptors (R116, R117) -/

theorem View.index_inj {w : View} : w.index = v.index ↔ w = v := by cases w <;> cases v <;> decide

theorem Side.code_camera {a b : Side} : (a.code = b.code ∨ a.code = 2 + b.code ∨ a.code = 4) ↔ b = a := by
  cases a <;> cases b <;> decide

theorem Side.code_display {a b : Side} :
    (2 + a.code = b.code ∨ 2 + a.code = 2 + b.code ∨ 2 + a.code = 4) ↔ b = a := by cases a <;> cases b <;> decide

/-- The views a descriptor concerns, by its view or its source (R116). -/
theorem Descriptor.concerns_iff :
    d.concerns v = true ↔
      d.viewIndex = some v.index ∨
        (d.viewIndex = none ∧ (d.source = v.side.code ∨ d.source = 2 + v.side.code ∨ d.source = 4)) := by
  cases d with
  | cam side k => simp [Descriptor.concerns, Descriptor.viewIndex, Descriptor.source, Side.code_camera]
  | view w k =>
    simp only [Descriptor.concerns, Descriptor.viewIndex, beq_iff_eq, Option.some.injEq, View.index_inj, reduceCtorEq,
      false_and, or_false]
    exact eq_comm
  | disp side k =>
    simp only [Descriptor.concerns, Descriptor.viewIndex, Descriptor.source, Side.code_display, beq_iff_eq,
      reduceCtorEq, false_or, true_and]
  | core k => simp [Descriptor.concerns, Descriptor.viewIndex, Descriptor.source]

theorem Descriptor.defaultReaction_eq :
    d.defaultReaction =
      if d.kind ∈ [0x01, 0x06, 0x07, 0x0A] then .degrade
      else if d.kind ∈ [0x04, 0x08, 0x09, 0x0B, 0x10, 0x20, 0x21, 0x31] then .warn
      else .none := by
  cases d with
  | cam side k => cases k <;> rfl
  | view w k => cases k <;> rfl
  | disp side k => cases k <;> rfl
  | core k => cases k <;> rfl

end

theorem CamKind.code_spec (k : CamKind) : camKinds[k.code - 1]? = some k ∧ 1 ≤ k.code := by cases k <;> decide

theorem ViewKind.code_spec (k : ViewKind) :
    ([ViewKind.latency, .viewLost, .ddrError])[k.code - 0x10]? = some k ∧ 0x10 ≤ k.code := by cases k <;> decide

theorem DispKind.code_spec (k : DispKind) : dispKinds[k.code - 0x20]? = some k ∧ 0x20 ≤ k.code := by
  cases k <;> decide

theorem CoreKind.code_spec (k : CoreKind) :
    ([CoreKind.tableSec, .tableDed, .resetSeen])[k.code - 0x30]? = some k ∧ 0x30 ≤ k.code := by cases k <;> decide

/-! ### The policy of a composer (R131) -/

/-- An entry, as R178 lays out its word. -/
theorem policyEntryOf_eq (w : Word) :
    policyEntryOf w =
      if w.getLsbD 0 = false then none
      else
        some
          { source := if bits w 4 3 = 7 then none else some (bits w 4 3)
            kindValue := bits w 8 6, kindMask := bits w 16 6
            select := if bits w 24 2 = 1 then .main else if bits w 24 2 = 2 then .wide else .both
            reaction := if bits w 28 2 = 0 then .none else if bits w 28 2 = 1 then .warn else .degrade } := by
  have hselect : viewSelectOf w = if bits w 24 2 = 1 then .main else if bits w 24 2 = 2 then .wide else .both := by
    unfold viewSelectOf
    split <;> simp_all
  have hreaction : reactionOf w = if bits w 28 2 = 0 then .none else if bits w 28 2 = 1 then .warn else .degrade := by
    unfold reactionOf
    split <;> simp_all
  rw [policyEntryOf, hselect, hreaction, flag, sourceMatchOf]
  cases w.getLsbD 0 <;> rfl

section
variable (s : State) (side : Side)

theorem State.outputView_policy (v : View) :
    ((s.outputView v).unit side).composer.policy = (s.unit side).composer.policy := by rw [State.outputView_composer]

theorem State.captureTrailer_policy :
    ((s.captureTrailer side).unit side).composer.policy = (s.unit side).composer.policy := by
  obtain ⟨trailer, h⟩ := s.captureTrailer_unit side
  rw [h]

theorem State.backlightStart_policy :
    ((s.backlightStart side).unit side).composer.policy = (s.unit side).composer.policy := by
  obtain ⟨light, h⟩ := s.backlightStart_unit side
  rw [h]

theorem State.afterLatches_policy :
    ((s.afterLatches side).unit side).composer.policy =
      (((s.latchLimits side).latch .policy ((List.range 16).map (2 + ·))).1.map policyOf).getD [] := by
  rw [State.afterLatches_eq, State.latch_unit, State.latchPolicy, State.modComposer_unit_same]

/-- After an output frame start the composer holds the policy that it latched. -/
theorem State.takeOutputStart_policy :
    ((s.takeOutputStart side).unit side).composer.policy =
      (((s.latchLimits side).latch .policy ((List.range 16).map (2 + ·))).1.map policyOf).getD [] := by
  rw [State.takeOutputStart_eq, State.captureTrailer_policy, State.backlightStart_policy, State.modComposer_unit_same,
    Composer.outputStart_eq, State.afterViews, State.outputView_policy, State.outputView_policy,
    State.afterLatches_policy]

/-- The latch of VIEW leaves POLICY alone. -/
theorem State.latchLimits_policy :
    (s.latchLimits side).tables.kind .policy = s.tables.kind .policy ∧
      ∀ b off, off < 18 → (s.latchLimits side).tables.word .policy b off = s.tables.word .policy b off := by
  have hview : ∀ off ∈ composerViewWords side, off < Kind.view.size := by cases side <;> decide
  have hlimits : (s.latchLimits side).tables = (s.latch .view (composerViewWords side)).2.tables :=
    State.modUnit_tables ..
  rw [hlimits]
  exact s.latch_other_kind (j := .policy) (by decide) hview

end

section
variable {s : State} {side : Side}

theorem policyWords_nodup : ((List.range 16).map (2 + ·)).Nodup := by decide

theorem mem_policyWords {off : Nat} : off ∈ (List.range 16).map (2 + ·) ↔ ∃ e, e < 16 ∧ off = 2 + e := by
  simp [eq_comm]

/-- A POLICY that is not usable, or whose entries hold a double error, gives no entry (R131, R160). -/
theorem State.policyAtOutput_fallback
    (h : s.tables.usable .policy = false ∨ ∃ e, e < 16 ∧
      2 ≤ (s.tables.word .policy (s.tables.kind .policy).live (2 + e)).errors) :
    ((s.takeOutputStart side).unit side).composer.policy = [] := by
  obtain ⟨hkind, hword⟩ := s.latchLimits_policy side
  have hlatch := State.latch_fallback (s := s.latchLimits side) policyWords_nodup (by
    rw [TableStore.usable, hkind]
    refine h.imp_right ?_
    rintro ⟨e, he, herr⟩
    exact ⟨2 + e, mem_policyWords.2 ⟨e, he, rfl⟩, by rwa [hword _ _ (by omega)]⟩)
  rw [State.takeOutputStart_policy, hlatch]
  rfl

/-- A usable POLICY gives the valid entries of its words, as corrected (R131). -/
theorem State.policyAtOutput_corrected (hu : s.tables.usable .policy = true)
    (h : ∀ e, e < 16 → (s.tables.word .policy (s.tables.kind .policy).live (2 + e)).errors < 2) :
    ((s.takeOutputStart side).unit side).composer.policy =
      (List.range 16).filterMap fun e =>
        policyEntryOf (s.tables.word .policy (s.tables.kind .policy).live (2 + e)).data := by
  obtain ⟨hkind, hword⟩ := s.latchLimits_policy side
  have hlatch := State.latch_corrected (s := s.latchLimits side) (k := .policy)
    (by rw [TableStore.usable, hkind]; exact hu) policyWords_nodup (by
      intro off hoff
      obtain ⟨e, he, rfl⟩ := mem_policyWords.1 hoff
      rw [hkind, hword _ _ (by omega)]
      exact h e he)
  rw [State.takeOutputStart_policy, hlatch, Option.map_some, Option.getD_some, policyOf]
  refine List.filterMap_congr fun e he => ?_
  have he16 : e < 16 := List.mem_range.1 he
  rw [wordAt_corrected _ _ _ (mem_policyWords.2 ⟨e, he16, rfl⟩), hkind, hword _ _ (by omega)]

end

/-- Settles O51: the strongest reaction, the deciding entry, the table of descriptors, and the policy that the composer
latches at an output frame start. -/
theorem reactionsFollowThePolicy : Obligations.ReactionsFollowThePolicy := by
  unfold Obligations.ReactionsFollowThePolicy
  refine ⟨fun fm policy v => ?_, fun d v => ⟨Descriptor.concerns_iff, Descriptor.defaultReaction_eq, ?_⟩,
    fun t side s hdue => ?_⟩
  · intro counts strength
    have hstrength : strength = Reaction.code := by
      funext r
      cases r <;> rfl
    rw [hstrength]
    refine ⟨fun d hd => reactionTo_le_effectiveReaction fm policy v hd, effectiveReaction_attained fm policy v,
      fun d hd => reactionTo_default hd, fun d before e after hp hb he => reactionTo_first hp hb he,
      fun e d => e.hits_iff, fun d => fm.active_iff⟩
  · cases d with
    | cam side k => exact ⟨rfl, rfl, CamKind.code_spec k⟩
    | view w k => exact ⟨rfl, rfl, ViewKind.code_spec k⟩
    | disp side k => exact ⟨rfl, rfl, DispKind.code_spec k⟩
    | core k => exact ⟨rfl, rfl, CoreKind.code_spec k⟩
  · intro word entry
    refine ⟨_, exec_outputFrameStart_due t hdue, ?_⟩
    intro clean policy
    refine ⟨fun husable hclean => ?_, fun hfallback => ?_⟩
    · have hpolicy := State.policyAtOutput_corrected (s := s.advance t) (side := side) husable hclean
      exact hpolicy.trans (List.filterMap_congr fun e _ => policyEntryOf_eq _)
    · refine State.policyAtOutput_fallback (s := s.advance t) (hfallback.imp_right fun hnot => ?_)
      simp only [clean, not_forall, not_lt, exists_prop] at hnot
      exact hnot

end Sys2Proof.Machine
end

section
/-! SUPPORT. The state that POWER_ON leaves (R26, R48, R57, R74, R98, R115, R139, R141, R154, R176, R191, R193). -/

namespace Sys2Proof.Machine

/-! ### The fault manager after power-on (R139, R141) -/

theorem inSet_allOnes (d : Descriptor) : inSet (BitVec.allOnes 51) d = true := by
  rw [inSet, BitVec.getLsbD_allOnes]
  exact decide_eq_true d.index.isLt

/-- The condition copies after power-on, one by one. -/
theorem reset_conditions :
    State.reset.faults.conditions =
      withD (withD (withD (withD 0 (.cam .left .linkLost)) (.cam .right .linkLost)) (.disp .left .telemetryLost))
        (.disp .right .telemetryLost) := by decide

theorem reset_inSet_conditions (d : Descriptor) :
    inSet State.reset.faults.conditions d = true ↔
      d ∈ [Descriptor.cam .left .linkLost, .cam .right .linkLost, .disp .left .telemetryLost,
        .disp .right .telemetryLost] := by
  simp only [reset_conditions, inSet_withD, inSet_zero, Bool.or_eq_true, decide_eq_true_eq, Bool.false_eq_true,
    false_or, List.mem_cons, List.not_mem_nil, or_false, or_assoc]

/-- The flags after power-on are the conditions and RESET_SEEN. -/
theorem reset_flags :
    State.reset.faults.flags = withD State.reset.faults.conditions (.core .resetSeen) := by decide

theorem reset_pulses (d : Descriptor) :
    State.reset.faults.pulses[d.index.val]'d.index.isLt = if d = .core .resetSeen then some 500000 else none := by
  have hindex : 50 = d.index.val ↔ d = .core .resetSeen :=
    ⟨fun h => index_inj (e := .core .resetSeen) h.symm, fun h => by rw [h]; rfl⟩
  have hpulses : State.reset.faults.pulses = (Vector.replicate 51 none).setIfInBounds 50 (some 500000) := rfl
  simp only [hpulses, Vector.getElem_setIfInBounds, Vector.getElem_replicate, hindex]

/-! ### The table store after power-on (R176) -/

theorem reset_kind (k : Kind) :
    State.reset.tables.kind k = { live := .bankA, generation := 0, sync := none, corrupt := false, locked := false } :=
  Vector.getElem_replicate _

/-- Settles O25: each clause is a field of the state after power-on. -/
theorem powerOnLeavesThePowerOnState : Obligations.PowerOnLeavesThePowerOnState := by
  unfold Obligations.PowerOnLeavesThePowerOnState
  intro s
  refine ⟨_, rfl, rfl, rfl, rfl, rfl, rfl, rfl, rfl, rfl, fun side => ?_, fun v => ?_, inSet_allOnes,
    reset_inSet_conditions, fun d => ?_, reset_pulses, rfl, rfl, rfl, rfl, fun _ => rfl, reset_kind, rfl, rfl, rfl⟩
  · cases side <;> exact ⟨rfl, rfl, rfl, rfl, rfl, rfl, rfl, rfl, rfl, rfl,
      ⟨rfl, rfl, rfl, rfl, rfl, rfl, rfl, rfl, rfl⟩, rfl, rfl, rfl, rfl, rfl, rfl, rfl, rfl, rfl, rfl, rfl⟩
  · cases v <;> exact ⟨rfl, rfl, rfl, rfl, rfl, rfl, rfl⟩
  · exact (congrArg (inSet · d) reset_flags).trans (inSet_withD _ _ d)

end Sys2Proof.Machine
end

section
/-! SUPPORT. A self-test command: the executor's taking of it changes places with every operation of the sequencer. -/

namespace Sys2Proof.Machine

/-! ### The taking of a command and the shared operations -/

section
variable (s : State) (link side : Side)

@[simp] theorem State.takeCommand_clock : (s.takeCommand link).clock = s.clock := by cases link <;> rfl

@[simp] theorem State.takeCommand_mode : (s.takeCommand link).mode = s.mode := by cases link <;> rfl

@[simp] theorem State.takeCommand_ingest : ((s.takeCommand link).unit side).ingest = (s.unit side).ingest := by
  cases link <;> cases side <;> rfl

@[simp] theorem State.takeCommand_pass : ((s.takeCommand link).unit side).pass = (s.unit side).pass := by
  cases link <;> cases side <;> rfl

@[simp] theorem State.takeCommand_sequencer :
    ((s.takeCommand link).unit side).sequencer = (s.unit side).sequencer := by
  cases link <;> cases side <;> rfl

theorem State.modIngest_takeCommand (f : Ingest → Ingest) :
    (s.takeCommand link).modIngest side f = (s.modIngest side f).takeCommand link := by
  cases link <;> cases side <;> rfl

theorem State.setPass_takeCommand (p : Pass) :
    (s.takeCommand link).setPass side p = (s.setPass side p).takeCommand link := by
  cases link <;> cases side <;> rfl

theorem State.modSequencer_takeCommand (f : Sequencer → Sequencer) :
    (s.takeCommand link).modSequencer side f = (s.modSequencer side f).takeCommand link := by
  cases link <;> cases side <;> rfl

theorem State.modRun_takeCommand (f : Run → Run) :
    (s.takeCommand link).modRun side f = (s.modRun side f).takeCommand link :=
  s.modSequencer_takeCommand link side _

theorem State.modBuffer_takeCommand (f : SelfTestBuffer → SelfTestBuffer) :
    (s.takeCommand link).modBuffer side f = (s.modBuffer side f).takeCommand link := by
  cases link <;> cases side <;> rfl

theorem State.raise_takeCommand (d : Descriptor) (w : List Word) :
    (s.takeCommand link).raise d w = (s.raise d w).takeCommand link := by cases link <;> rfl

theorem copiesOf_takeCommand (profile tone view glare : Option (List (Nat × Word))) :
    copiesOf (s.takeCommand link) side profile tone view glare = copiesOf s side profile tone view glare := by
  cases link <;> cases side <;> rfl

theorem State.latchCopies_takeCommand :
    (s.takeCommand link).latchCopies side = ((s.latchCopies side).1, (s.latchCopies side).2.takeCommand link) := by
  simp only [State.latchCopies, State.latch_takeCommand, copiesOf_takeCommand]

theorem State.latchReference_takeCommand (off : Nat) :
    (s.takeCommand link).latchReference side off =
      ((s.latchReference side off).1, (s.latchReference side off).2.takeCommand link) := by
  simp only [State.latchReference, State.latch_takeCommand]

/-! ### The taking of a command and the sequencer -/

theorem State.beginImmediate_takeCommand :
    (s.takeCommand link).beginImmediate side = (s.beginImmediate side).takeCommand link := by
  simp only [State.beginImmediate, State.latchCopies_takeCommand, State.takeCommand_clock, State.setPass_takeCommand]

theorem State.askSlot_takeCommand : (s.takeCommand link).askSlot side = (s.askSlot side).takeCommand link := by
  simp only [State.askSlot, State.takeCommand_ingest]
  cases (s.unit side).ingest.frame with
  | none => exact s.beginImmediate_takeCommand link side
  | some f => exact s.modIngest_takeCommand link side _

theorem State.askTransfer_takeCommand (x : Transfer) :
    (s.takeCommand link).askTransfer side x = (s.askTransfer side x).takeCommand link :=
  s.modBuffer_takeCommand link side _

theorem State.abandonReference_takeCommand :
    (s.takeCommand link).abandonReference side = (s.abandonReference side).takeCommand link := by
  simp only [State.abandonReference, State.takeCommand_pass, State.setPass_takeCommand,
    apply_ite (State.takeCommand · link)]

theorem State.releaseRun_takeCommand :
    (s.takeCommand link).releaseRun side = (s.releaseRun side).takeCommand link := by
  simp only [State.releaseRun, State.modIngest_takeCommand, State.abandonReference_takeCommand,
    State.modBuffer_takeCommand]

theorem State.endRun_takeCommand : (s.takeCommand link).endRun side = (s.endRun side).takeCommand link := by
  simp only [State.endRun, State.takeCommand_sequencer]
  cases (s.unit side).sequencer.run with
  | none => rfl
  | some r =>
    simp only [State.modSequencer_takeCommand, State.releaseRun_takeCommand, State.raise_takeCommand,
      apply_ite (State.takeCommand · link)]

theorem State.beginLink_takeCommand :
    (s.takeCommand link).beginLink side = ((s.beginLink side).1, (s.beginLink side).2.takeCommand link) := by
  simp only [State.beginLink, State.takeCommand_ingest, State.takeCommand_clock, State.modRun_takeCommand]
  split <;> rfl

theorem State.beginIdent_takeCommand :
    (s.takeCommand link).beginIdent side = ((s.beginIdent side).1, (s.beginIdent side).2.takeCommand link) := by
  simp only [State.beginIdent, State.latchReference_takeCommand]
  rcases s.latchReference side 0 with ⟨_ | w, s1⟩
  · rfl
  · simp only [State.takeCommand_clock, State.modRun_takeCommand]

theorem State.beginPattern_takeCommand :
    (s.takeCommand link).beginPattern side = ((s.beginPattern side).1, (s.beginPattern side).2.takeCommand link) := by
  simp only [State.beginPattern, State.latchReference_takeCommand]
  rcases s.latchReference side 9 with ⟨_ | w, s1⟩
  · rfl
  · simp only [State.takeCommand_ingest, State.takeCommand_clock, State.modIngest_takeCommand,
      State.modRun_takeCommand]
    split <;> rfl

theorem State.beginDevelop_takeCommand :
    (s.takeCommand link).beginDevelop side = ((s.beginDevelop side).1, (s.beginDevelop side).2.takeCommand link) := by
  simp only [State.beginDevelop, State.latchReference_takeCommand]
  rcases s.latchReference side 9 with ⟨_ | w, s1⟩
  · rfl
  · simp only [State.takeCommand_clock, State.modRun_takeCommand, State.askSlot_takeCommand]

theorem State.beginStore_takeCommand (image : Option Picture) :
    (s.takeCommand link).beginStore side image =
      ((s.beginStore side image).1, (s.beginStore side image).2.takeCommand link) := by
  cases image <;>
    simp only [State.beginStore, State.takeCommand_clock, State.modRun_takeCommand, State.askSlot_takeCommand,
      State.askTransfer_takeCommand]

theorem State.beginStep_takeCommand (r : Run) (st : Step) :
    (s.takeCommand link).beginStep side r st =
      ((s.beginStep side r st).1, (s.beginStep side r st).2.takeCommand link) := by
  cases st with
  | link => exact s.beginLink_takeCommand link side
  | ident =>
    simp only [State.beginStep, State.beginIdent_takeCommand]
    split <;> rfl
  | pattern =>
    simp only [State.beginStep, State.beginPattern_takeCommand]
    split <;> rfl
  | develop => exact s.beginDevelop_takeCommand link side
  | store =>
    simp only [State.beginStep, State.beginStore_takeCommand]
    split <;> rfl

theorem State.beginNext_takeCommand (steps : List Step) :
    (s.takeCommand link).beginNext side steps = (s.beginNext side steps).takeCommand link := by
  induction steps generalizing s with
  | nil => exact s.endRun_takeCommand link side
  | cons st rest ih =>
    simp only [State.beginNext, State.takeCommand_sequencer]
    cases (s.unit side).sequencer.run with
    | none => rfl
    | some r =>
      dsimp only
      split
      · rw [State.beginStep_takeCommand]
        rcases s.beginStep side r st with ⟨_ | o, s1⟩
        · rfl
        · dsimp only
          rw [State.modSequencer_takeCommand, ih]
      · exact ih s

theorem State.startRun_takeCommand (selection : PerStep Bool) :
    (s.takeCommand link).startRun side selection = (s.startRun side selection).takeCommand link := by
  simp only [State.startRun, State.modSequencer_takeCommand, State.beginNext_takeCommand]

end

end Sys2Proof.Machine
end

section
/-! SUPPORT. ABORT_SELFTEST (R151, R153, R217), GET_SELFTEST and CLEAR_SELFTEST (R150, R155, R218, R219). -/

namespace Sys2Proof.Machine

/-! ### The end of a run (R151, R153) -/

/-- R4: a pending request is withdrawn by *wanted = no* when the link is LOCKED. -/
theorem Ingest.withdraw_eq (i : Ingest) :
    i.withdraw =
      { i with
        patternPending := false
        sentRequests :=
          if i.patternPending = true ∧ i.link = .locked then i.sentRequests ++ [false] else i.sentRequests } := by
  unfold Ingest.withdraw
  dsimp only
  split <;> rfl

/-- Two changes of a side that agree on what it is. -/
theorem State.modUnit_congr {s : State} {side : Side} {f g : SideUnit → SideUnit}
    (h : f (s.unit side) = g (s.unit side)) : s.modUnit side f = s.modUnit side g := by
  cases side
  · exact congrArg (fun u => { s with left := u }) h
  · exact congrArg (fun u => { s with right := u }) h

theorem State.modUnit_eq_self {s : State} {side : Side} {f : SideUnit → SideUnit} (h : f (s.unit side) = s.unit side) :
    s.modUnit side f = s := by
  rw [State.modUnit_congr (g := id) h]
  cases side <;> rfl

section
variable (s : State) (side : Side)

theorem State.abandonReference_eq :
    s.abandonReference side =
      s.modUnit side fun u => { u with pass := if u.pass.isReference then .idle else u.pass } := by
  unfold State.abandonReference
  split
  next h => exact State.modUnit_congr (by rw [if_pos h])
  next h => exact (State.modUnit_eq_self (by rw [if_neg h])).symm

theorem State.releaseRun_eq :
    s.releaseRun side =
      s.modUnit side fun u =>
        { u with
          ingest :=
            { u.ingest with
              patternPending := false, slotHeld := false
              sentRequests :=
                if u.ingest.patternPending = true ∧ u.ingest.link = .locked then u.ingest.sentRequests ++ [false]
                else u.ingest.sentRequests }
          pass := if u.pass.isReference then .idle else u.pass
          buffer := { u.buffer with transfers := u.buffer.transfers.map Transfer.disown } } := by
  simp only [State.releaseRun, State.modIngest_eq, State.abandonReference_eq, State.modBuffer_eq,
    State.modUnit_modUnit, Ingest.withdraw_eq]
  rfl

/-- The end of a run, as one change of its side and its reports. -/
theorem State.endRun_eq_runEnded : s.endRun side = s.runEnded side := by
  unfold State.endRun State.runEnded
  cases (s.unit side).sequencer.run with
  | none => rfl
  | some r =>
    simp only [State.releaseRun_eq, State.modSequencer_eq, State.modUnit_modUnit]
    rfl

end

/-! ### ABORT_SELFTEST (R153, R217) -/

/-- An ABORT_SELFTEST that is taken ends the run of its side, if there is one, and answers whether there was. -/
theorem exec_abortSelftest {s : State} {t : Time} {link : Side} {tag : Byte} {side : Side}
    (h : s.ready link ⟨tag, 0x41, [BitVec.ofNat 8 side.code]⟩) :
    exec (.abortSelftest t link tag [BitVec.ofNat 8 side.code]) s =
      .next (((s.advance t).runEnded side).answered link ⟨tag, 0x41, [BitVec.ofNat 8 side.code]⟩ .ok
        (byte1 (bitOf (s.unit side).sequencer.run.isSome))) := by
  have hbody : ∀ a : State, abortSelftestBody [BitVec.ofNat 8 side.code] a =
      (⟨.ok, byte1 (bitOf (a.unit side).sequencer.run.isSome)⟩, a.endRun side) := fun a => by
    simp only [abortSelftestBody, withSide, sideOf_code]
  show s.command t link 0x41 tag _ _ = _
  rw [command_ready h, hbody, State.endRun_takeCommand, respond_take, State.endRun_eq_runEnded,
    State.takeCommand_sequencer, State.advance_unit]

/-- Settles O23: an IDLE side has no run to end, and the end of a run is `State.runEnded`. -/
theorem abortSelftestEndsTheRun : Obligations.AbortSelftestEndsTheRun := by
  unfold Obligations.AbortSelftestEndsTheRun
  intro t link tag side s c hready
  have hexec := exec_abortSelftest (t := t) hready
  unfold State.runEnded at hexec
  rw [State.advance_unit] at hexec
  cases hrun : (s.unit side).sequencer.run <;> (rw [hrun] at hexec; exact hexec)

/-! ### GET_SELFTEST and CLEAR_SELFTEST (R150, R155, R218, R219) -/

/-- R155: a GET_SELFTEST that is taken answers the report of its side's sequencer. -/
theorem exec_getSelftest {s : State} {t : Time} {link : Side} {tag : Byte} {side : Side}
    (h : s.ready link ⟨tag, 0x42, [BitVec.ofNat 8 side.code]⟩) :
    exec (.getSelftest t link tag [BitVec.ofNat 8 side.code]) s =
      .next ((s.advance t).answered link ⟨tag, 0x42, [BitVec.ofNat 8 side.code]⟩ .ok
        (selftestBytes (s.unit side).sequencer)) := by
  have hbody : ∀ a : State, getSelftestBody [BitVec.ofNat 8 side.code] a =
      (⟨.ok, selftestBytes (a.unit side).sequencer⟩, a) := fun a => by
    simp only [getSelftestBody, withSide, sideOf_code]
  show s.command t link 0x42 tag _ _ = _
  rw [command_ready h, hbody, respond_take, State.takeCommand_sequencer, State.advance_unit]

/-- R150: a CLEAR_SELFTEST that is taken clears the fail flags of its side. -/
theorem exec_clearSelftest {s : State} {t : Time} {link : Side} {tag : Byte} {side : Side}
    (h : s.ready link ⟨tag, 0x43, [BitVec.ofNat 8 side.code]⟩) :
    exec (.clearSelftest t link tag [BitVec.ofNat 8 side.code]) s =
      .next (((s.advance t).modSequencer side fun q =>
        { q with failFlags := ⟨false, false, false, false, false⟩ }).answered link
          ⟨tag, 0x43, [BitVec.ofNat 8 side.code]⟩ .ok []) := by
  have hbody : ∀ a : State, clearSelftestBody [BitVec.ofNat 8 side.code] a =
      (⟨.ok, []⟩, a.modSequencer side fun q => { q with failFlags := ⟨false, false, false, false, false⟩ }) :=
    fun a => by simp only [clearSelftestBody, withSide, sideOf_code]
  show s.command t link 0x43 tag _ _ = _
  rw [command_ready h, hbody, State.modSequencer_takeCommand, respond_take]

/-- Settles O24: the report byte by byte, and the flags cleared. -/
theorem getSelftestReportsAndClearSelftestClears : Obligations.GetSelftestReportsAndClearSelftestClears := by
  unfold Obligations.GetSelftestReportsAndClearSelftestClears
  intro t link tag side s q stepCode two code
  refine ⟨fun hready => ?_, exec_clearSelftest⟩
  have hcode : ∀ o : Option StepOutcome, (o.getD .pass).code = code o := fun o => by
    cases o <;> rfl
  rw [exec_getSelftest hready, selftestBytes]
  cases hrun : q.run with
  | none => rfl
  | some r =>
    have hr : (s.unit side).sequencer.run = some r := hrun
    have hstep : BitVec.ofNat 8 (runCode (s.unit side).sequencer) = stepCode r.step := by
      simp only [runCode, hr, stepCode]
      cases r.step <;> rfl
    simp only [byte1, hstep, outcomeBits, PerStep.map, hcode, two]
    rfl

end Sys2Proof.Machine
end

section
/-! SUPPORT. START_SELFTEST (R142, R216): what the beginning of a run keeps. -/

namespace Sys2Proof.Machine

/-! ### The beginning of a step keeps the other side and the run's account (R143 to R149) -/

/-- Only the blocks of one side, the tables and the reports differ; a run keeps its selection and its outcomes, and the
last-run outcomes stand. -/
structure StepBegins (side : Side) (a s : State) : Prop where
  only : OnlySide side a s
  last : (s.unit side).sequencer.last = (a.unit side).sequencer.last
  run : ∀ r', (s.unit side).sequencer.run = some r' →
    ∃ r, (a.unit side).sequencer.run = some r ∧ r'.selection = r.selection ∧ r'.outcomes = r.outcomes

namespace StepBegins
variable {side : Side} {a b s : State}

theorem of_sequencer (h : OnlySide side a s) (hq : (s.unit side).sequencer = (a.unit side).sequencer) :
    StepBegins side a s where
  only := h
  last := congrArg Sequencer.last hq
  run r hr := ⟨r, hq ▸ hr, rfl, rfl⟩

theorem refl (side : Side) (s : State) : StepBegins side s s := .of_sequencer (.refl side s) rfl

theorem trans (h : StepBegins side a b) (h' : StepBegins side b s) : StepBegins side a s where
  only := h.only.trans h'.only
  last := h'.last.trans h.last
  run r hr := by
    obtain ⟨r1, hr1, hselection1, houtcomes1⟩ := h'.run r hr
    obtain ⟨r2, hr2, hselection2, houtcomes2⟩ := h.run r1 hr1
    exact ⟨r2, hr2, hselection1.trans hselection2, houtcomes1.trans houtcomes2⟩

theorem modIngest (side : Side) (s : State) (f : Ingest → Ingest) : StepBegins side s (s.modIngest side f) :=
  .of_sequencer (.modUnit side s _) (by rw [State.modIngest_unit_same])

theorem setPass (side : Side) (s : State) (p : Pass) : StepBegins side s (s.setPass side p) :=
  .of_sequencer (.modUnit side s _) (by rw [State.setPass_unit_same])

theorem modBuffer (side : Side) (s : State) (f : SelfTestBuffer → SelfTestBuffer) :
    StepBegins side s (s.modBuffer side f) :=
  .of_sequencer (.modUnit side s _) (by rw [State.modBuffer_unit_same])

theorem latch (side : Side) (s : State) (k : Kind) (offs : List Nat) : StepBegins side s (s.latch k offs).2 :=
  .of_sequencer (s.latch_onlySide side k offs) (by rw [State.latch_unit])

/-- A step is entered. -/
theorem enter (side : Side) (s : State) (st : Step) (due : Option Nat) (reference : Option Half) :
    StepBegins side s (s.modRun side fun r => r.enter st due reference) where
  only := .modUnit side s fun u => { u with sequencer := { u.sequencer with run := u.sequencer.run.map _ } }
  last := by rw [State.modRun, State.modSequencer_unit_same]
  run r' hr := by
    rw [State.modRun, State.modSequencer_unit_same] at hr
    obtain ⟨r, hrun, rfl⟩ := Option.map_eq_some_iff.1 hr
    exact ⟨r, hrun, rfl, rfl⟩

end StepBegins

section
variable (s : State) (side : Side)

theorem State.latchCopies_onlySide : OnlySide side s (s.latchCopies side).2 := by
  have hlatch : ∀ (a : State) (k : Kind) (offs : List Nat), OnlySide side a (a.latch k offs).2 :=
    State.latch_onlySide side
  simp only [State.latchCopies]
  exact (((hlatch s _ _).trans (hlatch _ _ _)).trans (hlatch _ _ _)).trans (hlatch _ _ _)

theorem State.beginImmediate_begins : StepBegins side s (s.beginImmediate side) := by
  have hlatch : StepBegins side s (s.latchCopies side).2 :=
    .of_sequencer (s.latchCopies_onlySide side) (by rw [State.latchCopies_unit])
  simp only [State.beginImmediate]
  exact hlatch.trans (.setPass side _ _)

theorem State.askSlot_begins : StepBegins side s (s.askSlot side) := by
  unfold State.askSlot
  split
  next => exact s.beginImmediate_begins side
  next => exact .modIngest side s _

theorem State.beginLink_begins : StepBegins side s (s.beginLink side).2 := by
  unfold State.beginLink
  split
  next => exact .refl side s
  next => exact .enter side s ..

theorem State.latchReference_begins (off : Nat) : StepBegins side s (s.latchReference side off).2 :=
  .latch side s ..

theorem State.beginIdent_begins : StepBegins side s (s.beginIdent side).2 := by
  have hlatch := s.latchReference_begins side 0
  unfold State.beginIdent
  split
  next h => rwa [h] at hlatch
  next h =>
    rw [h] at hlatch
    exact hlatch.trans (.enter side _ ..)

theorem State.beginPattern_begins : StepBegins side s (s.beginPattern side).2 := by
  have hlatch := s.latchReference_begins side 9
  unfold State.beginPattern
  split
  next h => rwa [h] at hlatch
  next h =>
    rw [h] at hlatch
    split
    next => exact hlatch
    next => exact (hlatch.trans (.modIngest side _ _)).trans (.enter side _ ..)

theorem State.beginDevelop_begins : StepBegins side s (s.beginDevelop side).2 := by
  have hlatch := s.latchReference_begins side 9
  unfold State.beginDevelop
  split
  next h => rwa [h] at hlatch
  next h =>
    rw [h] at hlatch
    exact (hlatch.trans (.enter side _ ..)).trans (State.askSlot_begins _ side)

theorem State.beginStore_begins (image : Option Picture) : StepBegins side s (s.beginStore side image).2 := by
  unfold State.beginStore
  split
  next =>
    simp only [State.askTransfer]
    exact (StepBegins.enter side s ..).trans (.modBuffer side _ _)
  next => exact (StepBegins.enter side s ..).trans (State.askSlot_begins _ side)

theorem State.beginStep_begins (r : Run) (st : Step) : StepBegins side s (s.beginStep side r st).2 := by
  cases st with
  | link => exact s.beginLink_begins side
  | ident =>
    simp only [State.beginStep]
    split
    next => exact .refl side s
    next => exact s.beginIdent_begins side
  | pattern =>
    simp only [State.beginStep]
    split
    next => exact .refl side s
    next => exact s.beginPattern_begins side
  | develop => exact s.beginDevelop_begins side
  | store =>
    simp only [State.beginStep]
    split
    next => exact .refl side s
    next => exact s.beginStore_begins side _

/-! ### The beginning of a run keeps the other side (R142, R143) -/

theorem State.endRun_onlySide : OnlySide side s (s.endRun side) := by
  rw [State.endRun_eq_runEnded]
  unfold State.runEnded
  split
  next => exact .refl side s
  next =>
    dsimp only
    split
    next => exact (OnlySide.modUnit side s _).trans (.raise side _ _ _)
    next => exact ((OnlySide.modUnit side s _).trans (.raise side _ _ _)).trans (.raise side _ _ _)

theorem State.beginNext_onlySide (steps : List Step) : OnlySide side s (s.beginNext side steps) := by
  induction steps generalizing s with
  | nil => exact s.endRun_onlySide side
  | cons st rest ih =>
    simp only [State.beginNext]
    split
    next => exact .refl side s
    next r _ =>
      have hbegins := (s.beginStep_begins side r st).only
      split
      · split
        next h => rwa [h] at hbegins
        next h =>
          rw [h] at hbegins
          exact (hbegins.trans (.modUnit side _ _)).trans (ih _)
      · exact ih s

end

/-! ### The run that goes on (R142, R143) -/

/-- A run in progress has this selection, its unselected steps are NOT_SELECTED, and the last-run outcomes are these. -/
def Sequencer.goesOn (selection : PerStep Bool) (last : PerStep StepOutcome) (q : Sequencer) : Prop :=
  ∀ r, q.run = some r → r.selection = selection ∧
    (∀ st, selection.get st = false → r.outcomes.get st = some .notSelected) ∧ q.last = last

@[simp] theorem PerStep.get_map {α β : Type} (p : PerStep α) (f : α → β) (st : Step) :
    (p.map f).get st = f (p.get st) := by cases st <;> rfl

theorem PerStep.get_set_of_ne {α : Type} (p : PerStep α) {st st' : Step} (h : st' ≠ st) (x : α) :
    (p.set st x).get st' = p.get st' := by
  cases st <;> cases st' <;> first | rfl | exact absurd rfl h

section
variable {selection : PerStep Bool} {last : PerStep StepOutcome}

theorem Run.start_goesOn (q : Sequencer) (selection : PerStep Bool) :
    ({ q with run := some (Run.start selection) } : Sequencer).goesOn selection q.last := by
  rintro r ⟨⟩
  exact ⟨rfl, fun st hst => by simp [Run.start, hst], rfl⟩

theorem StepBegins.goesOn {side : Side} {a s : State} (h : StepBegins side a s)
    (ha : (a.unit side).sequencer.goesOn selection last) : (s.unit side).sequencer.goesOn selection last := by
  intro r' hr'
  obtain ⟨r, hr, hselection, houtcomes⟩ := h.run r' hr'
  obtain ⟨hsel, hnot, hlast⟩ := ha r hr
  exact ⟨hselection.trans hsel, fun st hst => houtcomes ▸ hnot st hst, h.last.trans hlast⟩

/-- Recording an outcome changes the run's outcomes and failures, and leaves the last-run outcomes (R150). -/
theorem Sequencer.recordOutcome_run (q : Sequencer) (st : Step) (o : StepOutcome) :
    (q.recordOutcome st o).run = q.run.map (fun r =>
      { r with
        outcomes := r.outcomes.set st (some o)
        failures := if o = .fail then r.failures.set st true else r.failures }) ∧
      (q.recordOutcome st o).last = q.last := by
  unfold Sequencer.recordOutcome
  dsimp only
  split <;> cases q.run <;> exact ⟨rfl, rfl⟩

/-- The outcome of a selected step is recorded. -/
theorem Sequencer.goesOn.recordOutcome {q : Sequencer} (h : q.goesOn selection last) {st : Step}
    (hst : selection.get st = true) (o : StepOutcome) : (q.recordOutcome st o).goesOn selection last := by
  obtain ⟨hrun, hrest⟩ := q.recordOutcome_run st o
  intro r' hr'
  rw [hrun] at hr'
  obtain ⟨r, hr, rfl⟩ := Option.map_eq_some_iff.1 hr'
  obtain ⟨hsel, hnot, hlast⟩ := h r hr
  refine ⟨hsel, fun st' hst' => ?_, hrest.trans hlast⟩
  have hne : st' ≠ st := fun e => by rw [e, hst] at hst'; exact absurd hst' (by decide)
  exact (PerStep.get_set_of_ne _ hne _).trans (hnot st' hst')

/-- No run is in progress after the end of one. -/
theorem State.endRun_no_run (s : State) (side : Side) : ((s.endRun side).unit side).sequencer.run = none := by
  rw [State.endRun_eq_runEnded]
  unfold State.runEnded
  split
  next h => exact h
  next => dsimp only; split <;> simp

theorem State.beginNext_goesOn {s : State} {side : Side} (h : (s.unit side).sequencer.goesOn selection last)
    (steps : List Step) : ((s.beginNext side steps).unit side).sequencer.goesOn selection last := by
  induction steps generalizing s with
  | nil =>
    intro r hr
    rw [State.beginNext, s.endRun_no_run side] at hr
    exact absurd hr (by simp)
  | cons st rest ih =>
    simp only [State.beginNext]
    split
    next => exact h
    next r hr =>
      obtain ⟨hsel, -, -⟩ := h r hr
      have hbegins := (s.beginStep_begins side r st).goesOn h
      split
      next hst =>
        split
        next hb => rwa [hb] at hbegins
        next hb =>
          rw [hb] at hbegins
          refine ih ?_
          rw [State.modSequencer_unit_same]
          exact hbegins.recordOutcome (hsel ▸ hst) _
      next => exact ih h

end

section
variable (s : State) (side : Side) (selection : PerStep Bool)

theorem State.startRun_onlySide : OnlySide side s (s.startRun side selection) :=
  (OnlySide.modUnit side s _).trans (State.beginNext_onlySide _ side _)

theorem State.startRun_goesOn :
    ((s.startRun side selection).unit side).sequencer.goesOn selection (s.unit side).sequencer.last :=
  State.beginNext_goesOn (by
    rw [State.modSequencer_unit_same]
    exact Run.start_goesOn _ selection) _

/-- A run keeps the channels of both links. -/
theorem State.startRun_channel (x : Side) : ((s.startRun side selection).unit x).channel = (s.unit x).channel :=
  congrArg Outline.channel ((Moves.startRun side selection .start).outline x)

/-- R144: with LINK selected and the link LOCKED, a run begins with LINK and its timer armed. -/
theorem State.startRun_link {s : State} {side : Side} {selection : PerStep Bool} (hsel : selection.link = true)
    (hlock : (s.unit side).ingest.link = .locked) :
    s.startRun side selection =
      s.modSequencer side fun q =>
        { q with run := some { Run.start selection with timerDue := some (s.clock + 200000) } } := by
  have hget : (Run.start selection).selection.get .link = true := hsel
  have hlocked : ((s.modSequencer side fun q => { q with run := some (Run.start selection) }).unit side).ingest.link =
      .locked := by rw [State.modSequencer_unit_same]; exact hlock
  have hrun : ((s.modSequencer side fun q => { q with run := some (Run.start selection) }).unit side).sequencer.run =
      some (Run.start selection) := by rw [State.modSequencer_unit_same]
  simp only [State.startRun, allSteps, State.beginNext, hrun, hget, if_true, State.beginStep, State.beginLink, hlocked,
    reduceCtorEq, if_false, State.modSequencer_clock]
  cases side <;> rfl

end

/-! ### The command (R142, R216) -/

section
variable {s : State} {link : Side} {c : Command} {st : Status} {p : List Byte}

/-- Answering a command looks at nothing of a side's blocks but its channel. -/
theorem State.answered_unit_congr {a b : State} {x : Side} (h : a.unit x = b.unit x) :
    (a.answered link c st p).unit x = (b.answered link c st p).unit x := by
  cases link <;> cases x <;> simp_all [State.answered, State.modChannel, State.modUnit, State.unit]

end

section
variable (s : State) (link side : Side) (c : Command) (st : Status) (p : List Byte)

theorem State.answered_mode : (s.answered link c st p).mode = s.mode := by cases link <;> rfl

theorem State.answered_sequencer :
    ((s.answered link c st p).unit side).sequencer = (s.unit side).sequencer := by
  cases link <;> cases side <;> rfl

theorem State.answered_responses :
    ((s.answered link c st p).unit link).channel.responses =
      (s.unit link).channel.responses ++ [⟨c.tag, c.kind + 0x80, st.code, p⟩] := by cases link <;> rfl

end

/-- A selection is read back from its step bits (R216). -/
theorem selectionOf_stepBits {selection : PerStep Bool} (h : selection.stepBits ≠ 0) :
    selectionOf (BitVec.ofNat 8 selection.stepBits) = some selection := by
  have hbits : ∀ a b c d e : Bool,
      (PerStep.mk a b c d e).stepBits < 32 ∧ stepsOfBits (PerStep.mk a b c d e).stepBits = ⟨a, b, c, d, e⟩ := by
    decide
  obtain ⟨hlt, hsteps⟩ : selection.stepBits < 32 ∧ stepsOfBits selection.stepBits = selection :=
    hbits selection.link selection.ident selection.pattern selection.develop selection.store
  have hnat : (BitVec.ofNat 8 selection.stepBits).toNat = selection.stepBits := by
    rw [BitVec.toNat_ofNat]
    exact Nat.mod_eq_of_lt (by omega)
  rw [selectionOf, hnat, if_neg (by omega), hsteps]

theorem startChecked_takeCommand (side : Side) (selection : PerStep Bool) (s : State) (link : Side) :
    startChecked side selection (s.takeCommand link) =
      ((startChecked side selection s).1, (startChecked side selection s).2.takeCommand link) := by
  simp only [startChecked, State.takeCommand_mode, State.takeCommand_sequencer, State.startRun_takeCommand]
  split
  · rfl
  · split
    · rfl
    · split <;> rfl

/-- R216: a START_SELFTEST with good parameters that is taken is refused, or begins a run. -/
theorem exec_startSelftest {s : State} {t : Time} {link : Side} {tag : Byte} {side : Side} {selection : PerStep Bool}
    (hsel : selection.stepBits ≠ 0)
    (h : s.ready link ⟨tag, 0x40, [BitVec.ofNat 8 side.code, BitVec.ofNat 8 selection.stepBits]⟩) :
    exec (.startSelftest t link tag [BitVec.ofNat 8 side.code, BitVec.ofNat 8 selection.stepBits]) s =
      .next ((startChecked side selection (s.advance t)).2.answered link
        ⟨tag, 0x40, [BitVec.ofNat 8 side.code, BitVec.ofNat 8 selection.stepBits]⟩
        (startChecked side selection (s.advance t)).1.status (startChecked side selection (s.advance t)).1.param) := by
  have hbody : ∀ a : State,
      startSelftestBody [BitVec.ofNat 8 side.code, BitVec.ofNat 8 selection.stepBits] a =
        startChecked side selection a := fun a => by
    simp only [startSelftestBody, sideOf_code, selectionOf_stepBits hsel]
  show s.command t link 0x40 tag _ _ = _
  rw [command_ready h, hbody, startChecked_takeCommand, ← respond_take]

section
variable {s : State} {side : Side} {selection : PerStep Bool}

theorem startChecked_config (hmode : s.mode = .config) :
    startChecked side selection s = (refuse .wrongMode, s) := by simp [startChecked, hmode]

theorem startChecked_running (hmode : s.mode = .run) (hrun : (s.unit side).sequencer.run.isSome = true) :
    startChecked side selection s = (refuse .busy, s) := by simp [startChecked, hmode, hrun]

theorem startChecked_failed (hmode : s.mode = .run) (hrun : (s.unit side).sequencer.run = none)
    (hflags : (s.unit side).sequencer.failFlags.stepBits ≠ 0) :
    startChecked side selection s = (refuse .blocked, s) := by simp [startChecked, hmode, hrun, hflags]

theorem startChecked_begins (hmode : s.mode = .run) (hrun : (s.unit side).sequencer.run = none)
    (hflags : (s.unit side).sequencer.failFlags.stepBits = 0) :
    startChecked side selection s = (⟨.ok, []⟩, s.startRun side selection) := by
  simp [startChecked, hmode, hrun, hflags]

end

/-- Settles O22: the refusals are those of `startChecked`, and what the run keeps is what each beginning of a step
keeps. -/
theorem startSelftestBeginsOrIsRefused : Obligations.StartSelftestBeginsOrIsRefused := by
  unfold Obligations.StartSelftestBeginsOrIsRefused
  intro t link tag side selection s hsel c q done hready
  have hdone : done = .next ((startChecked side selection (s.advance t)).2.answered link c
      (startChecked side selection (s.advance t)).1.status (startChecked side selection (s.advance t)).1.param) :=
    exec_startSelftest hsel hready
  have hunit : (s.advance t).unit side = s.unit side := s.advance_unit t side
  have hq : q = ((s.advance t).unit side).sequencer := (congrArg SideUnit.sequencer hunit).symm
  refine ⟨fun hmode => ?_, fun hmode hrun => ?_, fun hmode hrun hflags => ?_, fun hmode hrun hflags => ?_⟩
  · rw [hdone, startChecked_config (s := s.advance t) hmode]
    rfl
  · rw [hdone, startChecked_running (s := s.advance t) hmode (hq ▸ hrun)]
    rfl
  · rw [hdone, startChecked_failed (s := s.advance t) hmode (hq ▸ hrun) (hq ▸ hflags)]
    rfl
  · have hbegun : done = .next (((s.advance t).startRun side selection).answered link c .ok []) := by
      rw [hdone, startChecked_begins (s := s.advance t) hmode (hq ▸ hrun) (hq ▸ hflags)]
    have honly := (s.advance t).startRun_onlySide side selection
    refine ⟨⟨_, hbegun, ?_, rfl, rfl, ?_, ?_, ?_⟩,
      ⟨Run.start selection, rfl, rfl, rfl, rfl, rfl, rfl, rfl, rfl, hbegun⟩, fun hlink hlock => ?_⟩
    · exact (State.answered_mode ..).trans (honly.mode.trans hmode)
    · rw [State.answered_responses, State.startRun_channel, State.advance_unit]
      rfl
    · exact State.answered_unit_congr (honly.other.trans (s.advance_unit t side.other))
    · intro r hr
      rw [State.answered_sequencer] at hr ⊢
      have hgoes := (s.advance t).startRun_goesOn side selection r hr
      rwa [hunit] at hgoes
    · rw [hbegun, State.startRun_link hlink (hunit ▸ hlock)]
      rfl

end Sys2Proof.Machine
end

section
/-! SUPPORT. What the work of frames and pictures can do, said once: it is a sequence of moves and of changes of a
side's blocks other than its channel. So it takes no command, changes no mode and no kind record but by reading words. -/

namespace Sys2Proof.Machine

/-! ### Works -/

/-- The states that moves and changes of a side's blocks other than its channel lead to. -/
inductive Works (a : State) : State → Prop
  | start : Works a a
  | unit {s : State} (side : Side) (f : SideUnit → SideUnit)
      (hf : (f (s.unit side)).channel = (s.unit side).channel) (w : Works a s) : Works a (s.modUnit side f)
  | moves {s s' : State} (w : Works a s) (m : Moves s s') : Works a s'

namespace Works
variable {a s s' : State}

section
variable (w : Works a s)
include w

theorem activate (d : Descriptor) (v : List Word) (hd : d ≠ .core .tableDed) : Works a (s.activate d v) :=
  w.moves (.activate d v hd .start)

theorem deactivate (d : Descriptor) (hd : d ≠ .core .tableDed) : Works a (s.deactivate d) :=
  w.moves (.deactivate d hd .start)

theorem raise (d : Descriptor) (v : List Word) : Works a (s.raise d v) := w.moves (.raise d v .start)

theorem level (d : Descriptor) (on : Bool) (v : List Word) (hd : d ≠ .core .tableDed) : Works a (s.level d on v) :=
  w.moves (.level d on v hd .start)

theorem latch (k : Kind) (offs : List Nat) : Works a (s.latch k offs).2 := w.moves (.latch k offs .start)

theorem ite {c : Prop} [Decidable c] (w' : Works a s') : Works a (if c then s' else s) := by
  split <;> assumption

theorem modIngest (side : Side) (f : Ingest → Ingest) : Works a (s.modIngest side f) := w.unit side _ rfl

theorem modComposer (side : Side) (f : Composer → Composer) : Works a (s.modComposer side f) := w.unit side _ rfl

theorem modViews (side : Side) (f : ViewUnit → ViewUnit) : Works a (s.modViews side f) := w.unit side _ rfl

theorem modView (v : View) (f : ViewUnit → ViewUnit) : Works a (s.modView v f) :=
  w.unit v.side _ (by split <;> rfl)

theorem setPass (side : Side) (p : Pass) : Works a (s.setPass side p) := w.unit side _ rfl

theorem modRings (side : Side) (f : Ring → Ring) : Works a (s.modRings side f) := w.modViews side _

theorem freeFilling (side : Side) : Works a (s.freeFilling side) := w.modRings side _

theorem clearRecovery (side : Side) : Works a (s.clearRecovery side) := w.modViews side _

theorem setFrame (side : Side) (f : Option FrameRecord) : Works a (s.setFrame side f) := w.modIngest side _

/-! ### Ends of a frame -/

theorem reportConcealed (side : Side) (f : FrameRecord) : Works a (s.reportConcealed side f) := w.ite (w.raise _ _)

theorem abandonFramePass (side : Side) : Works a (s.abandonFramePass side) := by
  unfold State.abandonFramePass
  split
  next => exact w
  next => exact w.setPass side _
  next =>
    split
    next => exact w.setPass side _
    next => exact w

theorem discardFrame (side : Side) (f : FrameRecord) : Works a (s.discardFrame side f) :=
  (((w.freeFilling side).clearRecovery side).abandonFramePass side).setFrame side _

theorem abortFrame (side : Side) (f : FrameRecord) (reason : AbortReason) : Works a (s.abortFrame side f reason) :=
  (((((w.raise _ _).reportConcealed side f).freeFilling side).clearRecovery side).abandonFramePass side).setFrame side _

theorem abortAndReask (side : Side) (f : FrameRecord) (reason : AbortReason) :
    Works a (s.abortAndReask side f reason) := (w.abortFrame side f reason).moves (.reaskSlot side .start)

theorem endBefore (side : Side) : Works a (s.endBefore side) := by
  unfold State.endBefore
  split
  next => exact w
  next f _ => exact (w.abortFrame side f .noEnd).ite (w.setFrame side _)

/-! ### Frame starts (R5, R6, R21, R23, R24) -/

theorem measurePeriod (side : Side) (t : IngestTiming) : Works a (s.measurePeriod side t) := by
  unfold State.measurePeriod
  split
  next => exact w
  next => exact ((w.modIngest side _).level _ _ _ (by simp)).modComposer side _

theorem stampFrameStart (side : Side) : Works a (s.stampFrameStart side) := by
  cases side
  · exact w.moves (.latest _ (.modIngest .left _ rfl .start))
  · exact w.moves (.skew _ (.modIngest .right _ rfl .start))

theorem beginPass (side : Side) : Works a (s.beginPass side) := by
  unfold State.beginPass
  have hlatch := w.moves (.latchCopies side .start)
  generalize s.latchCopies side = latched at hlatch ⊢
  exact (hlatch.setPass side _).modRings side _

theorem takeFrameStart (side : Side) : Works a (s.takeFrameStart side) := by
  unfold State.takeFrameStart
  dsimp only
  have hlatch := (w.endBefore side).moves (.latchIngest side .start)
  generalize (s.endBefore side).latchIngest side = latched at hlatch ⊢
  obtain ⟨⟨p, t⟩, s2⟩ := latched
  generalize hs4 : State.stampFrameStart _ side = s4
  have hstamped : Works a s4 :=
    hs4 ▸ (((hlatch.modIngest side _).deactivate (.cam side .silent) (by simp)).measurePeriod side t).stampFrameStart
      side
  have hframe := hstamped.setFrame side (some (newFrame s4 side p t))
  exact (hframe.ite (hframe.beginPass side)).moves (.patternFrameStart side (.reaskSlot side .start))

/-! ### The embedded line (R7 to R13) -/

theorem passCounter (side : Side) (counter : Byte) : Works a (s.passCounter side counter) := by
  unfold State.passCounter
  refine modIngest ?_ side _
  split
  next => exact w
  next => exact (w.raise _ _).ite w

theorem consumeSlot (side : Side) (f : FrameRecord) : Works a (s.consumeSlot side f) := by
  have hfree := (w.freeFilling side).modIngest side fun i => { i with slotHeld := false }
  unfold State.consumeSlot
  dsimp only
  split
  next => exact (hfree.setPass side _).setFrame side _
  next => exact ((hfree.moves (.latchCopies side .start)).setPass side _).setFrame side _

theorem routeFrame (side : Side) (f : FrameRecord) (counter : Byte) (testPattern : Bool) :
    Works a (s.routeFrame side f counter testPattern) := by
  have haccept : Works a (s.acceptFrame side f counter) := (w.modRings side _).setFrame side _
  have hpattern : Works a (s.consumePattern side f) := ((w.freeFilling side).abandonFramePass side).setFrame side _
  exact (haccept.ite (w.consumeSlot side f)).ite (((w.raise _ _).discardFrame side _).ite hpattern)

theorem settleFrame (side : Side) (f : FrameRecord) (codes : List Code) : Works a (s.settleFrame side f codes) := by
  have hcheck : Works a (s.checkCamera side f (reportId codes) (reportByte codes 4)) :=
    (w.level _ _ _ (by simp)).level _ _ _ (by simp)
  exact ((hcheck.passCounter side _).routeFrame side _ _ _).ite ((hcheck.activate _ _ (by simp)).discardFrame side _)

/-! ### Active lines (R14, R15) -/

theorem takeRows (side : Side) (copies : WorkingCopies) (rows : List (Nat × List Developed)) :
    Works a (rows.foldl (fun s' row => s'.takeRow side copies row) s) := by
  induction rows generalizing s with
  | nil => exact w
  | cons row rest ih => exact ih (w.unit side _ rfl)

theorem developLine (side : Side) (y : Nat) (codes : List Code) : Works a (s.developLine side y codes) := by
  unfold State.developLine
  split
  next => exact w
  next p _ => exact (w.takeRows side p.copies _).unit side _ rfl
  next =>
    split
    next => exact w.setPass side _
    next => exact w

theorem takeLine (side : Side) (f : FrameRecord) (good : Bool) (codes : List Code) :
    Works a (s.takeLine side f good codes) := by
  have hframe := w.setFrame side (some (f.takeLine good (passedOn f good codes)))
  exact (hframe.ite (hframe.developLine side _ _)).ite (w.abortAndReask side _ _)

theorem lineArrives (side : Side) (index : Nat) (good : Bool) (codes : List Code) :
    Works a (s.lineArrives side index good codes) := by
  unfold State.lineArrives
  split
  next => exact w
  next f _ =>
    have habort := w.abortAndReask side f
    split
    case h_1 | h_2 => exact w
    case h_3 => exact ((w.settleFrame side f codes).ite (habort _)).ite (habort _)
    case h_4 | h_5 | h_6 => exact ((w.takeLine side f good codes).ite (habort _)).ite (habort _)

/-! ### Completions (R17, R20, R22) -/

theorem detectFrozen (side : Side) (f : FrameRecord) : Works a (s.detectFrozen side f) := by
  unfold State.detectFrozen
  dsimp only
  generalize hs1 : s.modIngest side _ = s1
  have hrun : Works a s1 := hs1 ▸ w.modIngest side _
  have hcleared : ∀ b : Bool, Works a (if b then s1 else s1.deactivate (.cam side .frozen)) := fun b =>
    (hrun.deactivate _ (by simp)).ite hrun
  exact (hcleared _).ite ((hcleared _).activate _ _ (by simp))

theorem completeViews (side : Side) (f : FrameRecord) : Works a (s.completeViews side f) := by
  refine w.ite ?_
  have hviews := w.modViews side ViewUnit.complete
  unfold State.publish
  split
  next => exact hviews.moves (.lightCompletion side _ (.trackerCompletion side _ (.setPass side _ .start)))
  next => exact hviews

theorem tellSequencer (side : Side) (f : FrameRecord) : Works a (s.tellSequencer side f) := by
  unfold State.tellSequencer
  split
  next => exact w.moves (.acceptedCompletion side _ .start)
  next => exact w.moves (.patternCompletion side _ .start)
  next =>
    unfold State.endPaced
    split
    next =>
      split
      next => exact w.moves (.referenceDone side _ .start)
      next => exact w
    next => exact w
  next => exact w

theorem completeFrame (side : Side) (f : FrameRecord) : Works a (s.completeFrame side f) := by
  unfold State.completeFrame
  dsimp only
  generalize hs2 : State.modIngest _ side _ = s2
  have hend : Works a s2 :=
    hs2 ▸ (((w.setFrame side none).deactivate _ (by simp)).reportConcealed side f).modIngest side _
  exact (((hend.ite (hend.detectFrozen side f)).completeViews side f).modComposer side _).tellSequencer side f

theorem takeFrameEnd (side : Side) : Works a (s.takeFrameEnd side) := by
  unfold State.takeFrameEnd
  split
  next => exact w
  next f _ => exact ((w.abortAndReask side f .short).ite (w.completeFrame side f)).ite (w.setFrame side _)

/-! ### The camera link (R2, R3) -/

theorem emptyLatest (side : Side) : Works a (s.emptyLatest side) := by
  cases side
  · exact w.moves (.latest none .start)
  · exact w

theorem loseLock (side : Side) : Works a (s.loseLock side) := by
  have hend := (((w.modIngest side fun i => { i with link := .noSignal }).activate (.cam side .linkLost) [] (by simp)
    ).endBefore side).moves (.clearTracker side .start)
  have hwithdrawn := (hend.emptyLatest side).modIngest side fun i => { i with patternPending := false }
  exact (hwithdrawn.ite ((hwithdrawn.modIngest side _).moves (.beginImmediate side .start))).moves
    (.lockLossInRun side .start)

theorem gainLock (side : Side) : Works a (s.gainLock side) :=
  ((((w.modIngest side _).deactivate _ (by simp)).deactivate _ (by simp)).deactivate _ (by simp)).moves
    (.clearTracker side .start)

/-! ### The output composer (R55, R59) and DDR transfers (R54) -/

theorem outputView (v : View) : Works a (s.outputView v) := by
  have hlost : ∀ {b : State} (cause : Option Word), Works a b → Works a (b.reportLost v cause) := by
    rintro b (_ | x) hb
    · exact hb
    · exact hb.raise _ _
  have hmeasure : ∀ {b : State}, Works a b → Works a (b.measureLatency v) := fun hb => by
    unfold State.measureLatency
    exact (hb.modView v _).level _ _ _ (by simp)
  unfold State.outputView
  exact (hmeasure (hlost _ (w.modView v _))).modView v _

theorem afterLatches (side : Side) : Works a (s.afterLatches side) := by
  have hlimits : Works a (s.latchLimits side) := by
    unfold State.latchLimits
    exact (w.latch .view _).unit side _ rfl
  have hpolicy : Works a ((s.latchLimits side).latchPolicy side) := by
    unfold State.latchPolicy
    exact (hlimits.latch .policy _).modComposer side _
  rw [State.afterLatches_eq]
  exact hpolicy.latch .timing _

theorem afterViews (side : Side) : Works a (s.afterViews side) :=
  ((w.afterLatches side).outputView side.mainView).outputView side.wideView

theorem writeFails (v : View) : Works a (s.writeFails v) := w.ite ((w.modView v _).raise _ _)

theorem regionRead (v : View) (ok : Bool) : Works a (s.regionRead v ok) := by
  unfold State.regionRead
  split
  next => exact ((w.modView v _).raise _ _).ite (w.modView v _)
  next => exact w

/-! ### Commands -/

theorem stopSide (side : Side) : Works a (s.stopSide side) :=
  (((w.modIngest side _).setPass side _).modRings side _).moves
    (.endRun side (.modLight side _ (.clearTracker side .start)))

theorem clearSuperseded : Works a s.clearSuperseded := by
  unfold State.clearSuperseded
  exact (w.modViews .left _).modViews .right _

end

/-! ### What works keep -/

/-- No works change time, clearing, mode or the executor. -/
theorem rest (w : Works a s) : SameRest a s := by
  induction w with
  | start => exact Moves.rest .start
  | unit side f _ _ ih =>
    obtain ⟨hclock, hclearing, hmode, hexecutor, hserved, hpending⟩ := ih
    constructor <;> simpa
  | moves _ m ih =>
    obtain ⟨hclock, hclearing, hmode, hexecutor, hserved, hpending⟩ := m.rest
    exact ⟨hclock.trans ih.clock, hclearing.trans ih.clearing, hmode.trans ih.mode, hexecutor.trans ih.executor,
      hserved.trans ih.lastServed, hpending.trans ih.pending⟩

/-- No works change the channel of a link. -/
theorem channel (w : Works a s) (side : Side) : (s.unit side).channel = (a.unit side).channel := by
  induction w with
  | start => rfl
  | @unit s x f hf _ ih =>
    by_cases hx : side = x
    · rw [hx, State.modUnit_unit_same, hf, ← hx, ih]
    · rw [State.modUnit_unit_of_ne _ hx, ih]
  | moves _ m ih => exact (congrArg Outline.channel (m.outline side)).trans ih

end Works

end Sys2Proof.Machine
end

section
/-! SUPPORT. What a step can do to the table store (chapter 8), said once: upkeep that keeps the live words and the kind
records, a kind that becomes CORRUPT, a successful commit, and the end of the clearing. -/

namespace Sys2Proof.Machine

/-! ### Upkeep of the store -/

/-- A change of the store that keeps the data of every live word, the corruption list, and of each record the live bank,
the generation and the health. -/
structure TableStore.Upkeep (ts ts' : TableStore) : Prop where
  sound : ts.sound → ts'.sound
  corruptions : ts'.corruptions = ts.corruptions
  live : ∀ k, (ts'.kind k).live = (ts.kind k).live
  generation : ∀ k, (ts'.kind k).generation = (ts.kind k).generation
  corrupt : ∀ k, (ts'.kind k).corrupt = (ts.kind k).corrupt
  data : ts.sound → ∀ k off, off < k.size →
    (ts'.word k (ts.kind k).live off).data = (ts.word k (ts.kind k).live off).data

/-- The two banks of a kind have no address in common. -/
theorem ramAddress_shadow_ne {j k : Kind} {b : Bank} {off off' : Nat} (h : off < j.size) (h' : off' < k.size)
    (hb : j = k → b = b') : ramAddress j b off ≠ ramAddress k b'.other off' := fun e => by
  obtain ⟨hk, hbank, -⟩ := ramAddress_inj h h' e
  rw [hb hk] at hbank
  cases b' <;> cases hbank

namespace TableStore.Upkeep
variable {ts ts' ts'' : TableStore}

theorem refl (ts : TableStore) : ts.Upkeep ts :=
  ⟨id, rfl, fun _ => rfl, fun _ => rfl, fun _ => rfl, fun _ _ _ _ => rfl⟩

theorem trans (h : ts.Upkeep ts') (h' : ts'.Upkeep ts'') : ts.Upkeep ts'' where
  sound hs := h'.sound (h.sound hs)
  corruptions := h'.corruptions.trans h.corruptions
  live k := (h'.live k).trans (h.live k)
  generation k := (h'.generation k).trans (h.generation k)
  corrupt k := (h'.corrupt k).trans (h.corrupt k)
  data hs k off hoff := by
    have hdata := h'.data (h.sound hs) k off hoff
    rw [h.live k] at hdata
    exact hdata.trans (h.data hs k off hoff)

theorem usable (h : ts.Upkeep ts') (k : Kind) : ts'.usable k = ts.usable k := by
  simp only [TableStore.usable, h.generation, h.corrupt]

/-- A change of the RAM alone. -/
theorem of_ram {ram : List (Nat × TableWord)} (hwf : ts.sound → ramWf ram = true)
    (hdata : ts.sound → ∀ k off, off < k.size →
      (ramRead ram (ramAddress k (ts.kind k).live off)).data = (ts.word k (ts.kind k).live off).data) :
    ts.Upkeep { ts with ram := ram } :=
  ⟨fun hs => ⟨hwf hs, hs.2⟩, rfl, fun _ => rfl, fun _ => rfl, fun _ => rfl, hdata⟩

/-- A word of the shadow is written (R162, R168). -/
theorem writeShadow {k : Kind} {off : Nat} (hoff : ts.sound → off < k.size) (d : Word) :
    ts.Upkeep (ts.writeWord k (ts.kind k).live.other off d) :=
  of_ram (fun hs => TableStore.writeWord_wf hs.1 (hoff hs) _ d) fun hs _ _ ho =>
    congrArg TableWord.data (ramRead_ramWrite_other _ _ (ramAddress_shadow_ne ho (hoff hs) fun hj => hj ▸ rfl))

/-- A write of the data that a word holds keeps the data of every word. -/
theorem data_ramWrite {ram : List (Nat × TableWord)} (h : ramWf ram = true) (addr other : Nat) {w : TableWord}
    (hw : w.data = (ramRead ram addr).data) : (ramRead (ramWrite ram addr w) other).data = (ramRead ram other).data := by
  by_cases ha : other = addr
  · rw [ha, ramRead_ramWrite_same h, hw]
  · rw [ramRead_ramWrite_of_ne h w ha]

/-- A word with an error is written back as corrected (R157). -/
theorem writeBack {k : Kind} {b : Bank} {off : Nat} (herr : (ts.word k b off).errors ≠ 0) :
    ts.Upkeep (ts.writeWord k b off (ts.word k b off).data) :=
  of_ram (fun hs => ramWrite_wf hs.1 ⟨lt_of_errors hs.1 herr, by simp⟩) fun hs _ _ _ => data_ramWrite hs.1 _ _ rfl

/-- A disturbance changes no data as written (R156). -/
theorem disturb (ts : TableStore) (u : Upset) : ts.Upkeep (ts.disturb u) := by
  have hwf : ts.sound → ramWf (ts.disturb u).ram = true := fun hs => TableStore.disturb_wf hs.1 u
  unfold TableStore.disturb at hwf ⊢
  dsimp only at hwf ⊢
  split
  next hle =>
    rw [if_pos hle] at hwf
    exact of_ram hwf fun hs _ _ _ => data_ramWrite hs.1 _ _ rfl
  next => exact .refl ts

theorem disturbs (upsets : List Upset) (ts : TableStore) : ts.Upkeep (upsets.foldl TableStore.disturb ts) := by
  induction upsets generalizing ts with
  | nil => exact .refl ts
  | cons u rest ih => exact (disturb ts u).trans (ih _)

/-- A change of one record that keeps its live bank, generation and health. -/
theorem modKind {k : Kind} {f : KindRecord → KindRecord} (hlive : (f (ts.kind k)).live = (ts.kind k).live)
    (hgen : (f (ts.kind k)).generation = (ts.kind k).generation)
    (hcorrupt : (f (ts.kind k)).corrupt = (ts.kind k).corrupt)
    (hsync : ts.sound → ∀ c, (f (ts.kind k)).sync = some c → c.next < k.size) : ts.Upkeep (ts.modKind k f) := by
  have hrecord : ∀ {α : Type} (g : KindRecord → α), g (f (ts.kind k)) = g (ts.kind k) → ∀ j,
      g ((ts.modKind k f).kind j) = g (ts.kind j) := fun g hg j => by
    by_cases hj : j = k
    · rw [hj, TableStore.modKind_kind_same, hg]
    · rw [TableStore.modKind_kind_of_ne ts hj]
  refine ⟨fun ⟨hram, hnext, hpos⟩ => ⟨hram, fun j c hj => ?_, hpos⟩, rfl, hrecord KindRecord.live hlive,
    hrecord KindRecord.generation hgen, hrecord KindRecord.corrupt hcorrupt, fun _ _ _ _ => rfl⟩
  by_cases hjk : j = k
  · rw [hjk, TableStore.modKind_kind_same] at hj
    exact hjk ▸ hsync ⟨hram, hnext, hpos⟩ c hj
  · rw [TableStore.modKind_kind_of_ne ts hjk] at hj
    exact hnext j c hj

theorem lock (ts : TableStore) (k : Kind) : ts.Upkeep (ts.lock k) :=
  modKind rfl rfl rfl fun hs c hc => hs.2.1 k c hc

/-- The words of a load are written into the shadow (R162). -/
theorem load {k : Kind} (ws : List Word) (ts : TableStore) {off : Nat} (hfit : off + ws.length ≤ k.size) :
    ts.Upkeep (ts.load k off ws) := by
  induction ws generalizing ts off with
  | nil => exact .refl ts
  | cons w rest ih =>
    rw [List.length_cons] at hfit
    exact (writeShadow (fun _ => by omega) w).trans (ih _ (by omega))

/-- The scrubber moves on (R173). -/
theorem scrubber (ts : TableStore) {position : Nat} (due : Option Nat)
    (hpos : ts.sound → position < Config.ramWords) :
    ts.Upkeep { ts with scrubPosition := position, scrubDue := due } :=
  ⟨fun hs => ⟨hs.1, hs.2.1, hpos hs⟩, rfl, fun _ => rfl, fun _ => rfl, fun _ => rfl, fun _ _ _ _ => rfl⟩

end TableStore.Upkeep

/-! ### Reading a word -/

/-- Reading a word changes of a kind record at most the health. -/
theorem State.readWord_record (s : State) (k : Kind) (b : Bank) (off : Nat) (j : Kind) :
    ∃ health, (s.readWord k b off).2.tables.kind j = { s.tables.kind j with corrupt := health } := by
  have corrupt : ∃ health, (s.corruptKind k off).tables.kind j = { s.tables.kind j with corrupt := health } := by
    rw [State.corruptKind_tables]
    split
    · exact ⟨_, rfl⟩
    · by_cases hj : j = k
      · exact ⟨true, by rw [hj, TableStore.modKind_corruptions_kind_same]⟩
      · exact ⟨_, TableStore.modKind_corruptions_kind_of_ne _ hj _ _⟩
  rcases s.readWord_cases k b off with ⟨-, e⟩ | ⟨-, e⟩ | ⟨-, e⟩ <;> rw [e]
  · exact ⟨_, rfl⟩
  · exact ⟨_, rfl⟩
  · dsimp only
    split
    · exact corrupt
    · exact ⟨_, rfl⟩

theorem State.readWord_live (s : State) (k : Kind) (b : Bank) (off : Nat) (j : Kind) :
    ((s.readWord k b off).2.tables.kind j).live = (s.tables.kind j).live := by
  obtain ⟨health, h⟩ := s.readWord_record k b off j
  rw [h]

/-- Reading a word changes no data as written. -/
theorem State.readWord_data {s : State} (h : ramWf s.tables.ram = true) (k : Kind) (b : Bank) (off addr : Nat) :
    (ramRead (s.readWord k b off).2.tables.ram addr).data = (ramRead s.tables.ram addr).data := by
  have corrupt : (s.corruptKind k off).tables.ram = s.tables.ram := by rw [State.corruptKind_tables]; split <;> rfl
  rcases s.readWord_cases k b off with ⟨-, e⟩ | ⟨-, e⟩ | ⟨-, e⟩ <;> rw [e]
  · exact TableStore.Upkeep.data_ramWrite h _ _ rfl
  · dsimp only
    split
    · rw [corrupt]
    · rfl

/-- A reading that answers words answers, of each word, the data as written, which the reading leaves. -/
theorem State.readWords_words {s s' : State} {k : Kind} {b : Bank} {offs : List Nat} {ws : List (Nat × Word)}
    (hs : s.tables.sound) (hd : offs.Nodup) (h : s.readWords k b offs = (.words ws, s')) :
    (∀ off ∈ offs, wordAt ws off = (s'.tables.word k b off).data) ∧
      ∀ j, (s'.tables.kind j).live = (s.tables.kind j).live := by
  have hclean : ∀ off ∈ offs, (s.tables.word k b off).errors < 2 := fun off hoff => by
    by_contra hge
    obtain ⟨e, he⟩ := State.readWords_double hd ⟨off, hoff, Nat.le_of_not_lt hge⟩
    rw [h] at he
    cases he
  have hws : ws = s.tables.corrected k b offs := by
    have hread := State.readWords_corrected hd hclean
    rw [h] at hread
    cases hread
    rfl
  have hkept : s'.tables.sound ∧ (∀ addr, (ramRead s'.tables.ram addr).data = (ramRead s.tables.ram addr).data) ∧
      ∀ j, (s'.tables.kind j).live = (s.tables.kind j).live := by
    have hread := State.readWords_induction (k := k) (b := b)
      (p := fun x => x.tables.sound ∧ (∀ addr, (ramRead x.tables.ram addr).data = (ramRead s.tables.ram addr).data) ∧
        ∀ j, (x.tables.kind j).live = (s.tables.kind j).live) offs (s := s) ⟨hs, fun _ => rfl, fun _ => rfl⟩
      fun x off _ ⟨hx, hdata, hlive⟩ =>
        ⟨State.readWord_tables_sound hx k b off, fun addr => (State.readWord_data hx.1 k b off addr).trans (hdata addr),
          fun j => (x.readWord_live k b off j).trans (hlive j)⟩
    rwa [h] at hread
  obtain ⟨-, hdata, hlive⟩ := hkept
  refine ⟨fun off hoff => ?_, hlive⟩
  rw [hws, wordAt_corrected _ _ _ hoff]
  exact (hdata _).symm

/-! ### What leaves the store alone -/

/-- Whether TABLE_DED is active. -/
def State.dedActive (s : State) : Bool := inSet s.faults.conditions (.core .tableDed)

@[simp] theorem State.activate_dedActive (s : State) {d : Descriptor} (hd : d ≠ .core .tableDed) (w : List Word) :
    (s.activate d w).dedActive = s.dedActive := by simp [State.dedActive, Ne.symm hd]

@[simp] theorem State.deactivate_dedActive (s : State) {d : Descriptor} (hd : d ≠ .core .tableDed) :
    (s.deactivate d).dedActive = s.dedActive := by simp [State.dedActive, Ne.symm hd]

@[simp] theorem State.raise_dedActive (s : State) (d : Descriptor) (w : List Word) :
    (s.raise d w).dedActive = s.dedActive := by simp [State.dedActive]

/-- The table store and the clearing stand, and no command joins a queue during the clearing. -/
structure OffStore (a s : State) : Prop where
  tables : s.tables = a.tables
  clearing : s.clearing = a.clearing
  queue : a.clearing = true → ∀ side, (a.unit side).channel.queue = [] → (s.unit side).channel.queue = []

namespace OffStore
variable {a b s : State}

theorem trans (h : OffStore a b) (h' : OffStore b s) : OffStore a s where
  tables := h'.tables.trans h.tables
  clearing := h'.clearing.trans h.clearing
  queue hc side hq := h'.queue (h.clearing.trans hc) side (h.queue hc side hq)

theorem of_unit_eq (htables : s.tables = a.tables) (hclearing : s.clearing = a.clearing)
    (hunit : ∀ side, s.unit side = a.unit side) : OffStore a s :=
  ⟨htables, hclearing, fun _ side hq => by rw [hunit, hq]⟩

theorem activate (s : State) (d : Descriptor) (w : List Word) : OffStore s (s.activate d w) :=
  .of_unit_eq rfl rfl fun _ => by simp

theorem raise (s : State) (d : Descriptor) (w : List Word) : OffStore s (s.raise d w) :=
  .of_unit_eq rfl rfl fun _ => by simp

theorem modUnit (s : State) (side : Side) {f : SideUnit → SideUnit}
    (hf : s.clearing = true → (s.unit side).channel.queue = [] → (f (s.unit side)).channel.queue = []) :
    OffStore s (s.modUnit side f) where
  tables := by simp
  clearing := by simp
  queue hc x hq := by
    by_cases hx : x = side
    · rw [hx] at hq ⊢
      rw [State.modUnit_unit_same, hf hc hq]
    · rw [State.modUnit_unit_of_ne _ hx, hq]

end OffStore

/-! ### What a step does to the store -/

/-- Whether the target attenuation of GLARE in a bank lies in 16..255 (R166, R178). -/
def TableStore.targetIn (ts : TableStore) (b : Bank) : Prop :=
  16 ≤ bits (ts.word .glare b 14).data 0 8 ∧ bits (ts.word .glare b 14).data 0 8 ≤ 255

/-- The states that the operations on the table store lead to in a step from `a`. A commit succeeds only when a command
was queued during the clearing, or there is none; and its shadow of GLARE is valid. -/
inductive StoreFrom (a : State) : State → Prop
  | start : StoreFrom a a
  | aside {s s' : State} (h : StoreFrom a s) (hoff : OffStore s s') (hded : s'.dedActive = s.dedActive) : StoreFrom a s'
  | standing {s s' : State} (h : StoreFrom a s) (hoff : OffStore s s')
      (hded : s'.dedActive = true ↔ s.tables.corruptions ≠ []) : StoreFrom a s'
  | upkeep {s : State} {ts : TableStore} (h : StoreFrom a s) (hts : s.tables.Upkeep ts) :
      StoreFrom a { s with tables := ts }
  | corrupt {s : State} (h : StoreFrom a s) (k : Kind) (off : Nat) : StoreFrom a (s.corruptKind k off)
  | switch {s : State} (h : StoreFrom a s) (k : Kind)
      (hqueued : a.clearing = true → ∃ side, (a.unit side).channel.queue ≠ [])
      (htarget : k = .glare → a.tables.sound → s.tables.targetIn (s.tables.kind .glare).live.other) :
      StoreFrom a (s.switchBanks k)
  | endClearing {s : State} (h : StoreFrom a s) (hclearing : s.clearing = true) : StoreFrom a s.endClearing

/-! ### A successful commit -/

/-- The tables after a successful commit (R167). -/
theorem State.switchBanks_tables (s : State) (k : Kind) :
    (s.switchBanks k).tables =
      { s.tables.modKind k (fun r =>
          { r with
            live := r.live.other, generation := nextGeneration r.generation, corrupt := false
            sync := some ⟨s.clock, 0⟩ }) with
        corruptions := s.tables.corruptions.filter fun e => e.1 != k } := by
  unfold State.switchBanks
  dsimp only
  split <;> rfl

theorem State.switchBanks_clearing (s : State) (k : Kind) : (s.switchBanks k).clearing = s.clearing := by
  unfold State.switchBanks
  dsimp only
  split <;> rfl

theorem State.switchBanks_kind_same (s : State) (k : Kind) :
    (s.switchBanks k).tables.kind k =
      { s.tables.kind k with
        live := (s.tables.kind k).live.other, generation := nextGeneration (s.tables.kind k).generation
        corrupt := false, sync := some ⟨s.clock, 0⟩ } := by
  rw [State.switchBanks_tables, TableStore.modKind_corruptions_kind_same]

theorem State.switchBanks_kind_of_ne (s : State) {j k : Kind} (hj : j ≠ k) :
    (s.switchBanks k).tables.kind j = s.tables.kind j := by
  rw [State.switchBanks_tables, TableStore.modKind_corruptions_kind_of_ne _ hj]

/-- A commit takes its kind off the corruption list (R167). -/
theorem State.switchBanks_corruptKinds (s : State) (k : Kind) :
    (s.switchBanks k).tables.corruptKinds = s.tables.corruptKinds.filter (· != k) := by
  rw [TableStore.corruptKinds, State.switchBanks_tables, TableStore.corruptKinds, List.filter_map]
  rfl

/-- TABLE_DED ends with the last entry of the corruption list (R120). -/
theorem State.switchBanks_dedActive (s : State) (k : Kind) :
    (s.switchBanks k).dedActive = true ↔
      s.dedActive = true ∧ ¬((s.tables.kind k).corrupt = true ∧ (s.switchBanks k).tables.corruptKinds = []) := by
  rw [TableStore.corruptKinds, List.map_eq_nil_iff, State.switchBanks_tables]
  unfold State.switchBanks
  dsimp only
  split
  next hlast => simp [hlast, State.dedActive]
  next hlast => simp only [hlast, not_false_eq_true, and_true, State.dedActive]

/-- A commit keeps the corruption list and TABLE_DED in step (R167). -/
theorem State.switchBanks_corruptionSound {s : State} (h : s.corruptionSound) (k : Kind) :
    (s.switchBanks k).corruptionSound := by
  obtain ⟨hnodup, hmem, hded⟩ := h
  have hhealth : ∀ j, ((s.switchBanks k).tables.kind j).corrupt = true ↔ (s.tables.kind j).corrupt = true ∧ j ≠ k := by
    intro j
    by_cases hj : j = k
    · rw [hj, State.switchBanks_kind_same]; simp
    · rw [State.switchBanks_kind_of_ne _ hj]; simp [hj]
  have hlist : ∀ j, j ∈ (s.switchBanks k).tables.corruptKinds ↔ (s.tables.kind j).corrupt = true ∧ j ≠ k := fun j => by
    rw [State.switchBanks_corruptKinds, List.mem_filter, hmem, bne_iff_ne]
  have hempty : (s.switchBanks k).tables.corruptKinds = [] ↔ ∀ j, (s.tables.kind j).corrupt = true → j = k := by
    simp only [List.eq_nil_iff_forall_not_mem, hlist, not_and, not_not]
  refine ⟨by rw [State.switchBanks_corruptKinds]; exact hnodup.filter _, fun j => (hlist j).trans (hhealth j).symm, ?_⟩
  refine (State.switchBanks_dedActive s k).trans ?_
  rw [show s.dedActive = true ↔ _ from hded, hempty]
  simp only [hhealth]
  constructor
  · rintro ⟨⟨j, hj⟩, hlast⟩
    by_contra hnone
    push Not at hnone
    exact hlast ⟨hnone j hj ▸ hj, hnone⟩
  · rintro ⟨j, hj, hjk⟩
    exact ⟨⟨j, hj⟩, fun hlast => hjk (hlast.2 j hj)⟩

/-! ### What the operations keep -/

namespace StoreFrom
variable {a s : State}

theorem tables_sound (h : StoreFrom a s) (ha : a.tables.sound) : s.tables.sound := by
  induction h with
  | start => exact ha
  | aside _ hoff _ ih => exact hoff.tables ▸ ih
  | standing _ hoff _ ih => exact hoff.tables ▸ ih
  | upkeep _ hts ih => exact hts.sound ih
  | corrupt _ k off ih => exact State.corruptKind_tables_sound ih k off
  | @switch s _ k _ _ ih =>
    obtain ⟨hram, hnext, hpos⟩ := ih
    refine ⟨by rw [State.switchBanks_tables]; exact hram, fun j c hj => ?_,
      by rw [State.switchBanks_tables]; exact hpos⟩
    by_cases hjk : j = k
    · rw [hjk, State.switchBanks_kind_same] at hj
      cases hj
      cases j <;> exact Nat.succ_pos _
    · rw [State.switchBanks_kind_of_ne _ hjk] at hj
      exact hnext j c hj
  | endClearing _ _ ih => exact ⟨rfl, ih.2⟩

/-- Once it has ended, the clearing does not begin again without a power-on. -/
theorem clearing_false (h : StoreFrom a s) (ha : a.clearing = false) : s.clearing = false := by
  induction h with
  | start => exact ha
  | aside _ hoff _ ih => exact hoff.clearing.trans ih
  | standing _ hoff _ ih => exact hoff.clearing.trans ih
  | upkeep _ _ ih => exact ih
  | corrupt _ k off ih => exact (State.corruptKind_rest _ k off).clearing.trans ih
  | switch _ k _ _ ih => exact (State.switchBanks_clearing _ k).trans ih
  | endClearing => rfl

theorem corruptionSound (h : StoreFrom a s) (ha : a.corruptionSound) : s.corruptionSound := by
  induction h with
  | start => exact ha
  | aside _ hoff hded ih =>
    exact State.corruptionSound_of_eq ih (by rw [hoff.tables]) (fun k => by rw [hoff.tables]) hded
  | @standing s s' _ hoff hded ih =>
    obtain ⟨hnodup, hmem, -⟩ := ih
    have hstands : s.tables.corruptions ≠ [] ↔ ∃ k, (s.tables.kind k).corrupt = true := by
      rw [← exists_congr hmem, Ne, ← List.map_eq_nil_iff (f := Prod.fst)]
      exact ⟨List.exists_mem_of_ne_nil _, fun ⟨k, hk⟩ => List.ne_nil_of_mem hk⟩
    rw [State.corruptionSound, hoff.tables]
    exact ⟨hnodup, hmem, hded.trans hstands⟩
  | upkeep _ hts ih => exact State.corruptionSound_of_eq ih hts.corruptions hts.corrupt rfl
  | corrupt _ k off ih => exact State.corruptKind_corruptionSound ih k off
  | switch _ k _ _ ih => exact State.switchBanks_corruptionSound ih k
  | endClearing _ _ ih => exact State.corruptionSound_of_eq ih rfl (fun _ => rfl) rfl

end StoreFrom

/-- The soundness of the GLARE tables, with the queues side by side. -/
theorem State.glareTablesSound_iff (s : State) :
    s.glareTablesSound ↔
      (s.tables.usable .glare = true → s.tables.targetIn (s.tables.kind .glare).live) ∧
        (s.clearing = true → s.tables.usable .glare = false ∧ ∀ side, (s.unit side).channel.queue = []) := by
  rw [Side.forall_iff]
  exact Iff.rfl

/-- A kind that is usable after a kind became CORRUPT was usable before, with the same live bank. -/
theorem State.corruptKind_usable {s : State} {k j : Kind} {off : Nat}
    (h : (s.corruptKind k off).tables.usable j = true) :
    s.tables.usable j = true ∧ ((s.corruptKind k off).tables.kind j).live = (s.tables.kind j).live := by
  rw [State.corruptKind_tables] at h ⊢
  split at h
  next hcorrupt => rw [if_pos hcorrupt]; exact ⟨h, rfl⟩
  next hcorrupt =>
    rw [if_neg hcorrupt]
    by_cases hj : j = k
    · rw [hj, TableStore.usable, TableStore.modKind_corruptions_kind_same] at h
      simp at h
    · rw [TableStore.usable, TableStore.modKind_corruptions_kind_of_ne _ hj] at h
      rw [TableStore.modKind_corruptions_kind_of_ne _ hj]
      exact ⟨h, rfl⟩

namespace StoreFrom
variable {a s : State}

theorem glareTablesSound (h : StoreFrom a s) (ha : a.tables.sound) (hg : a.glareTablesSound) : s.glareTablesSound := by
  rw [State.glareTablesSound_iff] at *
  induction h with
  | start => exact hg
  | aside _ hoff _ ih | standing _ hoff _ ih =>
    obtain ⟨htarget, hquiet⟩ := ih
    rw [hoff.tables, hoff.clearing]
    exact ⟨htarget, fun hc => ⟨(hquiet hc).1, fun side => hoff.queue hc side ((hquiet hc).2 side)⟩⟩
  | upkeep h hts ih =>
    obtain ⟨htarget, hquiet⟩ := ih
    have hword := hts.data (h.tables_sound ha) .glare 14 (by decide)
    refine ⟨fun hu => ?_, fun hc => ⟨(hts.usable _).trans (hquiet hc).1, (hquiet hc).2⟩⟩
    rw [hts.usable] at hu
    rw [TableStore.targetIn, hts.live, hword]
    exact htarget hu
  | @corrupt s _ k off ih =>
    obtain ⟨htarget, hquiet⟩ := ih
    have hram : (s.corruptKind k off).tables.ram = s.tables.ram := by rw [State.corruptKind_tables]; split <;> rfl
    refine ⟨fun hu => ?_, fun hc => ?_⟩
    · obtain ⟨hbefore, hlive⟩ := State.corruptKind_usable hu
      rw [TableStore.targetIn, hlive, TableStore.word, hram]
      exact htarget hbefore
    · rw [(State.corruptKind_rest s k off).clearing] at hc
      obtain ⟨hnot, hqueue⟩ := hquiet hc
      exact ⟨Bool.eq_false_iff.2 fun hu => Bool.eq_false_iff.1 hnot (State.corruptKind_usable hu).1,
        fun side => by rw [State.corruptKind_unit]; exact hqueue side⟩
  | @switch s h k hqueued hvalid ih =>
    have hopen : a.clearing = false := by
      by_contra hc
      obtain ⟨side, hside⟩ := hqueued (Bool.eq_true_of_not_eq_false hc)
      exact hside ((hg.2 (Bool.eq_true_of_not_eq_false hc)).2 side)
    refine ⟨fun hu => ?_, fun hc => ?_⟩
    · have hram : (s.switchBanks k).tables.ram = s.tables.ram := by rw [State.switchBanks_tables]; rfl
      rw [TableStore.targetIn, TableStore.word, hram]
      by_cases hk : .glare = k
      · rw [← hk, State.switchBanks_kind_same]
        exact hvalid hk.symm ha
      · rw [TableStore.usable, State.switchBanks_kind_of_ne _ hk] at hu
        rw [State.switchBanks_kind_of_ne _ hk]
        exact ih.1 hu
    · rw [State.switchBanks_clearing, h.clearing_false hopen] at hc
      cases hc
  | @endClearing s _ hclearing ih =>
    obtain ⟨hnot, -⟩ := ih.2 hclearing
    have husable : s.endClearing.tables.usable .glare = false := hnot
    exact ⟨fun hu => absurd hu (Bool.eq_false_iff.1 husable), fun hc => by cases hc⟩

end StoreFrom

end Sys2Proof.Machine
end

section
/-! SUPPORT. Every step other than POWER_ON changes the table store by the operations of the store alone. -/

namespace Sys2Proof.Machine

namespace StoreFrom
variable {a s s' : State}

section
variable (h : StoreFrom a s)
include h

theorem ite {c : Prop} [Decidable c] (h' : StoreFrom a s') : StoreFrom a (if c then s' else s) := by
  split <;> assumption

/-! ### Beside the store -/

/-- A change of a side's blocks that brings no command during the clearing. -/
theorem modUnit (side : Side) (f : SideUnit → SideUnit)
    (hf : s.clearing = true → (s.unit side).channel.queue = [] → (f (s.unit side)).channel.queue = []) :
    StoreFrom a (s.modUnit side f) := h.aside (.modUnit s side hf) (by simp [State.dedActive])

theorem modUnit_channel (side : Side) {f : SideUnit → SideUnit}
    (hf : (f (s.unit side)).channel = (s.unit side).channel) : StoreFrom a (s.modUnit side f) :=
  h.modUnit side f fun _ hq => by rw [hf, hq]

theorem modIngest (side : Side) (f : Ingest → Ingest) : StoreFrom a (s.modIngest side f) := h.modUnit_channel side rfl

theorem modComposer (side : Side) (f : Composer → Composer) : StoreFrom a (s.modComposer side f) :=
  h.modUnit_channel side rfl

/-- A change of a channel that leaves its queue. -/
theorem modChannel (side : Side) (f : Link → Link) (hf : ∀ l, (f l).queue = l.queue := by intro; rfl) :
    StoreFrom a (s.modChannel side f) := h.modUnit side _ fun _ hq => (hf _).trans hq

theorem modView (v : View) (f : ViewUnit → ViewUnit) : StoreFrom a (s.modView v f) :=
  h.modUnit_channel v.side (by split <;> rfl)

theorem raise (d : Descriptor) (w : List Word) : StoreFrom a (s.raise d w) :=
  h.aside (.raise s d w) (s.raise_dedActive d w)

theorem activate (d : Descriptor) (w : List Word) (hd : d ≠ .core .tableDed) : StoreFrom a (s.activate d w) :=
  h.aside (.activate s d w) (s.activate_dedActive hd w)

theorem deactivate (d : Descriptor) (hd : d ≠ .core .tableDed) : StoreFrom a (s.deactivate d) :=
  h.aside (.of_unit_eq rfl rfl fun _ => by simp) (s.deactivate_dedActive hd)

/-- A change of the fault manager that keeps its condition copies. -/
theorem setFaults {fm : FaultManager} (hfm : fm.conditions = s.faults.conditions) :
    StoreFrom a { s with faults := fm } :=
  h.aside (.of_unit_eq rfl rfl fun side => by cases side <;> rfl) (by simp only [State.dedActive, hfm])

/-! ### Moves and works -/

theorem readWord (k : Kind) (b : Bank) (off : Nat) : StoreFrom a (s.readWord k b off).2 := by
  rcases s.readWord_cases k b off with ⟨-, e⟩ | ⟨herr, e⟩ | ⟨-, e⟩ <;> rw [e]
  · exact h
  · exact (h.upkeep (.writeBack (by rw [herr]; exact one_ne_zero))).raise _ _
  · dsimp only
    split
    · exact h.corrupt k off
    · exact h

theorem moves (m : Moves s s') : StoreFrom a s' := by
  induction m with
  | start => exact h
  | unit side f hf _ ih => exact ih.modUnit_channel side (congrArg Outline.channel hf)
  | latest _ _ ih | skew _ _ ih =>
    exact ih.aside (.of_unit_eq rfl rfl fun side => by cases side <;> rfl) rfl
  | activate d w hd _ ih => exact ih.activate d w hd
  | deactivate d hd _ ih => exact ih.deactivate d hd
  | raise d w _ ih => exact ih.raise d w
  | readWord k b off _ ih => exact ih.readWord k b off

theorem works (w : Works s s') : StoreFrom a s' := by
  induction w with
  | start => exact h
  | unit side f hf _ ih => exact ih.modUnit_channel side hf
  | moves _ m ih => exact ih.moves m

theorem takeOutputStart (side : Side) : StoreFrom a (s.takeOutputStart side) := by
  rw [State.takeOutputStart_eq]
  generalize hs1 : State.backlightStart _ side = s1
  have hstart : StoreFrom a s1 :=
    hs1 ▸ ((h.works (.afterViews .start side)).modComposer side _).moves (.backlightStart side .start)
  unfold State.captureTrailer
  exact (hstart.modChannel side _).modComposer side _

/-! ### The command channel -/

theorem acceptCommand (hopen : s.clearing = false) (link : Side) (c : Command) :
    StoreFrom a (s.acceptCommand link c) :=
  ((h.modChannel link _).raise _ _).ite
    (h.modUnit link _ fun hc => absurd hc (Bool.eq_false_iff.1 hopen))

theorem routePacket (hopen : s.clearing = false) (link : Side) (c : Command) :
    StoreFrom a (s.routePacket link c) := by
  refine (h.acceptCommand hopen link c).ite ?_
  split
  next => exact h.moves (.telemetry link _ _ .start)
  next => exact h.raise _ _

theorem takeByte (hopen : s.clearing = false) (link : Side) (b : Byte) : StoreFrom a (s.takeByte link b) := by
  have hreceiver : ∀ r, StoreFrom a (s.setReceiver link r) := fun r => h.modChannel link _
  unfold State.takeByte
  split
  next => exact (h.raise _ _).ite (hreceiver _)
  next =>
    have hwait := hreceiver .waitLen
    have hstill : (s.setReceiver link .waitLen).clearing = false := (State.modUnit_clearing s link _).trans hopen
    exact ((hwait.raise _ _).ite (hwait.routePacket hstill link _)).ite (hreceiver _)

theorem packetTimedOut (link : Side) : StoreFrom a (s.packetTimedOut link) := by
  unfold State.packetTimedOut
  split
  next => exact h
  next => exact h.ite ((h.modChannel link _).raise _ _)

theorem deliver (link : Side) (c : Command) : StoreFrom a (s.deliver link c) := by
  unfold State.deliver
  split
  next hfree => exact h.acceptCommand hfree.2.1 link c
  next => exact h

/-! ### The store's own steps (R168, R173, R177) -/

theorem copyWord {k : Kind} {c : SyncCopy} (hc : (s.tables.kind k).sync = some c) : StoreFrom a (s.copyWord k c) := by
  obtain ⟨health, hrecord⟩ := s.readWord_record k (s.tables.kind k).live c.next k
  have hread := h.readWord k (s.tables.kind k).live c.next
  unfold State.copyWord
  dsimp only
  generalize s.readWord k (s.tables.kind k).live c.next = read at hread hrecord ⊢
  obtain ⟨d, s1⟩ := read
  dsimp only at hread hrecord ⊢
  have hnext : s1.tables.sound → c.next < k.size := fun hs => hs.2.1 k c (by rw [hrecord, hc])
  have hwrite : ∀ data, s1.tables.Upkeep (s1.tables.writeWord k (s.tables.kind k).live.other c.next data) := fun data =>
    have hshadow := TableStore.Upkeep.writeShadow hnext data
    by rwa [show (s1.tables.kind k).live = (s.tables.kind k).live by rw [hrecord]] at hshadow
  refine hread.upkeep ((hwrite _).trans (.modKind rfl rfl rfl fun _ c' hc' => ?_))
  dsimp only at hc'
  split at hc'
  next hlt => cases hc'; exact hlt
  next => cases hc'

theorem syncStep (k : Kind) : StoreFrom a (s.syncStep k) := by
  unfold State.syncStep
  split
  next => exact h
  next c hc => exact h.ite (h.copyWord hc)

theorem finishSync (k : Kind) (fuel : Nat) : StoreFrom a (s.finishSync k fuel) := by
  induction fuel generalizing s with
  | zero => exact h
  | succ n ih =>
    unfold State.finishSync
    split
    next => exact h
    next c hc => exact ih (h.copyWord hc)

theorem finishSyncs (kinds : List Kind) : StoreFrom a (kinds.foldl (fun s1 k => s1.finishSync k k.size) s) := by
  induction kinds generalizing s with
  | nil => exact h
  | cons k rest ih => exact ih (h.finishSync k k.size)

theorem scrub : StoreFrom a s.scrub := by
  unfold State.scrub
  split
  next => exact h
  next addr _ =>
    have hposition : StoreFrom a
        { s with tables := { s.tables with scrubPosition := (addr + 1) % Config.ramWords } } :=
      h.upkeep (.scrubber s.tables s.tables.scrubDue fun _ => Nat.mod_lt _ (by decide))
    dsimp only
    split
    next => exact hposition
    next => exact hposition.readWord _ _ _

theorem scrubIfDue : StoreFrom a s.scrubIfDue := by
  unfold State.scrubIfDue
  split
  next => exact h
  next due _ =>
    have hdue : StoreFrom a { s with tables := { s.tables with scrubDue := some (due + Config.scrubInterval) } } :=
      h.upkeep (.scrubber s.tables _ fun hs => hs.2.2)
    exact h.ite hdue.scrub

/-! ### The soft reset (R140, R141, R177) -/

theorem latchSilentDue : StoreFrom a s.latchSilentDue.2 := h.moves (.latch .timing [2] .start)

end

end StoreFrom

/-! ### The standing conditions at a soft reset (R141) -/

namespace OffStore

theorem standCamera (s : State) (side : Side) : OffStore s (s.standCamera side) := by
  unfold State.standCamera
  split
  · exact .activate s _ _
  · exact .of_unit_eq rfl rfl fun _ => rfl

theorem standDisplay (s : State) (side : Side) : OffStore s (s.standDisplay side) := by
  unfold State.standDisplay
  dsimp only
  split <;> split
  · exact .of_unit_eq rfl rfl fun _ => rfl
  · exact .activate s _ _
  · exact .activate s _ _
  · exact (OffStore.activate s _ _).trans (.activate _ _ _)

theorem standTables (s : State) : OffStore s s.standTables := by
  unfold State.standTables
  split
  · exact .of_unit_eq rfl rfl fun _ => rfl
  · exact .activate s _ _

theorem takeStanding (s : State) : OffStore s s.takeStanding :=
  (((((OffStore.raise s _ _).trans (standCamera _ .left)).trans (standCamera _ .right)).trans
    (standDisplay _ .left)).trans (standDisplay _ .right)).trans (standTables _)

end OffStore

theorem State.standCamera_dedActive (s : State) (side : Side) : (s.standCamera side).dedActive = s.dedActive := by
  unfold State.standCamera
  split <;> simp

theorem State.standDisplay_dedActive (s : State) (side : Side) : (s.standDisplay side).dedActive = s.dedActive := by
  unfold State.standDisplay
  dsimp only
  split <;> split <;> simp

theorem State.standTables_dedActive {s : State} (h : s.dedActive = false) :
    s.standTables.dedActive = true ↔ s.tables.corruptions ≠ [] := by
  unfold State.standTables
  split
  next hnone => simp [hnone, h]
  next hsome => simp [hsome, State.dedActive]

/-- TABLE_DED stands exactly while the corruption list has an entry. -/
theorem State.takeStanding_dedActive {s : State} (h : s.dedActive = false) :
    s.takeStanding.dedActive = true ↔ s.tables.corruptions ≠ [] := by
  have hoff := ((((OffStore.raise s (.core .resetSeen) [resetSoft]).trans (.standCamera _ .left)).trans
    (.standCamera _ .right)).trans (.standDisplay _ .left)).trans (.standDisplay _ .right)
  unfold State.takeStanding
  rw [State.standTables_dedActive (by
    simp only [State.standDisplay_dedActive, State.standCamera_dedActive, State.raise_dedActive, h]), hoff.tables]

namespace StoreFrom
variable {a s s' : State}

/-- The standing conditions are taken anew. -/
theorem stand (h : StoreFrom a s) (hoff : OffStore s s') (hded : s'.dedActive = false) : StoreFrom a s'.takeStanding :=
  h.standing (hoff.trans (.takeStanding s')) (by rw [State.takeStanding_dedActive hded, hoff.tables])

theorem performSoftReset (h : StoreFrom a s) : StoreFrom a s.performSoftReset := by
  have hsync : StoreFrom a s.finishSyncs := h.finishSyncs allKinds
  have hlatched := hsync.latchSilentDue.latchSilentDue.moves (.latch .view [0, 8, 16, 24] .start)
  unfold State.performSoftReset
  generalize s.finishSyncs.latchSilentDue = left at hlatched ⊢
  obtain ⟨leftDue, s1⟩ := left
  dsimp only at hlatched ⊢
  generalize s1.latchSilentDue = right at hlatched ⊢
  obtain ⟨rightDue, s2⟩ := right
  dsimp only at hlatched ⊢
  generalize s2.latch .view [0, 8, 16, 24] = view at hlatched ⊢
  exact hlatched.stand ⟨rfl, rfl, fun _ side _ => by cases side <;> rfl⟩ (inSet_zero _)

/-! ### Commands -/

/-- A commit that succeeds has found GLARE's target attenuation in its range (R166). -/
theorem targetIn_of_valid {ts : TableStore} {ws : List (Nat × Word)} {b : Bank} (hvalid : firstInvalid .glare ws = none)
    (hws : wordAt ws 14 = (ts.word .glare b 14).data) : ts.targetIn b := by
  have hword : wordValid .glare ws 14 = true := by
    simpa using List.find?_eq_none.1 hvalid 14 (List.mem_range.2 (by decide))
  simp only [wordValid, policyEntryUnchecked, rangesOk, fieldsOf, hws, List.all_cons, Bool.and_eq_true, Bool.or_eq_true,
    decide_eq_true_eq] at hword
  rcases hword with hpolicy | hranges
  · simp at hpolicy
  · exact hranges.1.1.2.1

section
variable (h : StoreFrom a s)
include h

theorem resetOrigins (ws : List (Nat × Word)) : StoreFrom a (s.resetOrigins ws) :=
  have horigin : ∀ {x : State}, StoreFrom a x → ∀ v, StoreFrom a (x.modView v fun u => u.resetOrigin ws v) :=
    fun hx v => hx.modView v _
  horigin (horigin (horigin (horigin h .leftMain) .leftWide) .rightMain) .rightWide

theorem acceptedCommit (hqueued : a.clearing = true → ∃ side, (a.unit side).channel.queue ≠ []) (k : Kind) (crc : Nat) :
    StoreFrom a (acceptedCommit k crc s).2 := by
  have hread := h.moves (.readWords k (s.tables.kind k).live.other (List.range k.size) .start)
  unfold Machine.acceptedCommit
  split
  next hr => rwa [hr] at hread
  next ws s1 hr =>
    rw [hr] at hread
    split
    next => exact hread
    next =>
      split
      next => exact hread
      next hvalid =>
        have hswitch : StoreFrom a (s1.switchBanks k) := hread.switch k hqueued fun hk ha => by
          obtain ⟨hws, hlive⟩ := State.readWords_words (h.tables_sound ha) List.nodup_range hr
          subst hk
          rw [hlive]
          exact targetIn_of_valid hvalid (hws 14 (List.mem_range.2 (by decide)))
        exact hswitch.ite (hswitch.resetOrigins ws)

theorem acceptedRead (k : Kind) (shadow : Bool) (off count : Nat) :
    StoreFrom a (acceptedRead k shadow off count s).2 := by
  have hread := h.moves
    (.readWords k (namedBank s.tables k shadow) (List.range' off (min count (k.size - off))) .start)
  unfold Machine.acceptedRead
  split
  next hr => rwa [hr] at hread
  next hr => rwa [hr] at hread

theorem acceptedLoad {k : Kind} {off : Nat} (hoff : off < k.size) (data : List Byte) :
    StoreFrom a (acceptedLoad k off data s).2 :=
  h.upkeep (.load _ s.tables (by rw [List.length_take]; omega))

theorem setMode (mode : Mode) : StoreFrom a { s with mode := mode } :=
  h.aside (.of_unit_eq rfl rfl fun side => by cases side <;> rfl) rfl

theorem commandEffect (hqueued : a.clearing = true → ∃ side, (a.unit side).channel.queue ≠ []) {link : Side}
    (he : CommandEffect link s s') : StoreFrom a s' := by
  cases he with
  | nothing => exact h
  | clearSuperseded => exact h.works (.clearSuperseded .start)
  | goRun => exact (h.setMode .run).works (.modViews (.modViews .start .left _) .right _)
  | goConfig => exact (h.setMode .config).works (.stopSide (.stopSide .start .left) .right)
  | resetPending => exact h.aside (.of_unit_eq rfl rfl fun side => by cases side <;> rfl) rfl
  | setTimeout ms => exact h.modChannel link _
  | load k off data hoff => exact h.acceptedLoad hoff data
  | commit k crc => exact h.acceptedCommit hqueued k crc
  | read k shadow off count => exact h.acceptedRead k shadow off count
  | lock k => exact h.upkeep (.lock s.tables k)
  | pan v x y =>
    have hlatch := h.moves (.latch .view (panWords v) .start)
    unfold acceptedPan
    dsimp only
    exact hlatch.modView v _
  | force side f => exact h.modUnit_channel side rfl
  | clearDrops side => exact h.modUnit_channel side rfl
  | clearEvents m => exact (h.moves (.latch .policy [0] .start)).setFaults rfl
  | setEnables select value => exact h.setFaults rfl
  | removeRecords n => exact h.setFaults rfl
  | startRun side selection => exact h.moves (.startRun side selection .start)
  | endRun side => exact h.moves (.endRun side .start)
  | clearFailFlags side => exact h.modUnit_channel side rfl

end

/-- A command is taken only from a queue: none is delivered during the clearing (R176, log 3). -/
theorem queued_of_takes {link : Side} {c : Command} (htakes : (s.deliver link c).takes link c = true)
    (hclearing : s.clearing = true) : (s.unit link).channel.queue ≠ [] := by
  have hdeliver : s.deliver link c = s := if_neg fun hfree => by rw [hclearing] at hfree; cases hfree.2.1
  rw [hdeliver, State.takes, Bool.and_eq_true, decide_eq_true_eq, decide_eq_true_eq] at htakes
  obtain ⟨rest, hqueue⟩ := ready_queue htakes
  rw [hqueue]
  exact List.cons_ne_nil c rest

/-- A command row changes the store by the effect of its body. -/
theorem runCommand (s : State) (t : Time) (link : Side) (c : Command) {body : State → Reply × State}
    (hbody : ∀ x : State, CommandEffect link x (body x).2) :
    StoreFrom s ((s.advance t).runCommand link c body) := by
  have hadvance : StoreFrom s (s.advance t) := start.aside (.of_unit_eq rfl rfl fun _ => by simp) rfl
  have hdeliver := hadvance.deliver link c
  unfold State.runCommand
  dsimp only
  split
  next htakes =>
    have htake : StoreFrom s (((s.advance t).deliver link c).takeCommand link) :=
      (hdeliver.modUnit link (fun u => { u with channel := { u.channel with queue := u.channel.queue.drop 1 } })
        fun _ hq => by simp [hq]).aside (.of_unit_eq rfl rfl fun side => by cases side <;> rfl) rfl
    have hdone := htake.commandEffect (fun hc => ⟨link, by simpa using queued_of_takes htakes hc⟩) (hbody _)
    exact (hdone.modChannel link _).aside (s' := State.respond _ link c _)
      (.of_unit_eq rfl rfl fun side => by cases side <;> rfl) rfl
  next => exact hdeliver

end StoreFrom

/-! ### Every step -/

/-- A step other than POWER_ON leads to its next table store by the operations of the store. -/
theorem exec_storeFrom (s : State) {i : Instr} (hi : i ≠ .powerOn) : ∃ s', exec i s = .next s' ∧ StoreFrom s s' := by
  have h : ∀ t, StoreFrom s (s.advance t) := fun t =>
    StoreFrom.start.aside (.of_unit_eq rfl rfl fun _ => by simp) rfl
  have command : ∀ t link kind tag param {body : State → Reply × State},
      (∀ x : State, CommandEffect link x (body x).2) →
        ∃ s', s.command t link kind tag param body = .next s' ∧ StoreFrom s s' :=
    fun t link _ _ _ _ hb => ⟨_, rfl, .runCommand s t link _ hb⟩
  cases i with
  | powerOn => exact absurd rfl hi
  | tableClearEnd t =>
    refine ⟨_, rfl, ?_⟩
    split
    next hdue => exact (h t).endClearing hdue.1
    next => exact h t
  | softResetInstant t =>
    refine ⟨_, rfl, ?_⟩
    split
    next => exact (h t).ite (h t).performSoftReset
    next => exact h t
  | linkLost t side => exact ⟨_, rfl, (h t).ite ((h t).works (.loseLock .start side))⟩
  | linkLock t side => exact ⟨_, rfl, (h t).ite ((h t).works (.gainLock .start side))⟩
  | frameStart t side => exact ⟨_, rfl, (h t).ite ((h t).works (.takeFrameStart .start side))⟩
  | embeddedLine t side good codes => exact ⟨_, rfl, (h t).ite ((h t).works (.lineArrives .start side 0 good codes))⟩
  | activeLine t side index good codes =>
    exact ⟨_, rfl, (h t).ite ((h t).works (.lineArrives .start side index good codes))⟩
  | frameEnd t side => exact ⟨_, rfl, (h t).ite ((h t).works (.takeFrameEnd .start side))⟩
  | referencePassEnd t side =>
    refine ⟨_, rfl, ?_⟩
    split
    next =>
      split
      next => exact (h t).ite ((h t).moves (.referenceDone side _ .start))
      next => exact h t
    next => exact h t
  | silentTimerExpiry t side => exact ⟨_, rfl, (h t).ite (((h t).modIngest side _).activate _ _ (by simp))⟩
  | frameStartStampExpiry t side =>
    have hstamp := (h t).modIngest side fun i => { i with prevStart := expireStamp (s.advance t).now i.prevStart }
    refine ⟨_, rfl, ?_⟩
    cases side
    · exact hstamp.moves (.latest _ .start)
    · exact hstamp
  | completionStampExpiry t side => exact ⟨_, rfl, (h t).modComposer side _⟩
  | ddrWriteFail t v => exact ⟨_, rfl, (h t).works (.writeFails .start v)⟩
  | regionReadDone t v ok => exact ⟨_, rfl, (h t).works (.regionRead .start v ok)⟩
  | outputFrameStart t side => exact ⟨_, rfl, (h t).ite ((h t).takeOutputStart side)⟩
  | returnLaneByte t link b =>
    refine ⟨_, rfl, ?_⟩
    split
    next => exact h t
    next hopen => exact (h t).takeByte (Bool.eq_false_iff.2 hopen) link b
  | packetTimeout t link => exact ⟨_, rfl, (h t).packetTimedOut link⟩
  | ambientTimerExpiry t side => exact ⟨_, rfl, (h t).ite ((h t).moves (.ambientLost side .start))⟩
  | pulseExpiry t d =>
    refine ⟨_, rfl, (h t).setFaults ?_⟩
    unfold FaultManager.endPulse
    split <;> rfl
  | holdOffExpiry t => exact ⟨_, rfl, (h t).ite ((h t).setFaults rfl)⟩
  | selftestStepTimeout t side => exact ⟨_, rfl, (h t).ite ((h t).moves (.stepTimeout side .start))⟩
  | storeWriteDone t side ok => exact ⟨_, rfl, (h t).moves (.writeDone side ok .start)⟩
  | storeReadDone t side data => exact ⟨_, rfl, (h t).moves (.readDone side data .start)⟩
  | syncWordCopy t k => exact ⟨_, rfl, (h t).syncStep k⟩
  | scrubVisit t upsets => exact ⟨_, rfl, ((h t).upkeep (.disturbs upsets _)).scrubIfDue⟩
  | echo t link tag param => exact command _ _ _ _ _ (echoBody_effect param)
  | getStatus t link tag param => exact command _ _ _ _ _ fun x => withNone_effect param x .clearSuperseded
  | enterRun t link tag param => exact command _ _ _ _ _ (enterRunBody_effect param)
  | enterConfig t link tag param => exact command _ _ _ _ _ (enterConfigBody_effect param)
  | softReset t link tag param => exact command _ _ _ _ _ fun x => withNone_effect param x .resetPending
  | setChannel t link tag param => exact command _ _ _ _ _ (setChannelBody_effect param)
  | loadTable t link tag param => exact command _ _ _ _ _ (loadTableBody_effect param)
  | commitTable t link tag param => exact command _ _ _ _ _ (commitTableBody_effect param)
  | readTable t link tag param => exact command _ _ _ _ _ (readTableBody_effect param)
  | tableStatus t link tag param => exact command _ _ _ _ _ fun x => withNone_effect param x .nothing
  | lockTable t link tag param => exact command _ _ _ _ _ (lockTableBody_effect param)
  | setPan t link tag param => exact command _ _ _ _ _ (setPanBody_effect param)
  | forceLight t link tag param => exact command _ _ _ _ _ (forceLightBody_effect param)
  | getGlare t link tag param => exact command _ _ _ _ _ fun x => withSide_effect param x .clearDrops
  | getTiming t link tag param => exact command _ _ _ _ _ fun x => withNone_effect param x .nothing
  | getEvents t link tag param => exact command _ _ _ _ _ fun x => withNone_effect param x .nothing
  | clearEvents t link tag param => exact command _ _ _ _ _ (clearEventsBody_effect param)
  | setEventEnable t link tag param => exact command _ _ _ _ _ (setEventEnableBody_effect param)
  | readLog t link tag param => exact command _ _ _ _ _ (readLogBody_effect param)
  | startSelftest t link tag param => exact command _ _ _ _ _ (startSelftestBody_effect param)
  | abortSelftest t link tag param => exact command _ _ _ _ _ fun x => withSide_effect param x .endRun
  | getSelftest t link tag param => exact command _ _ _ _ _ fun x => withSide_effect param x fun _ => .nothing
  | clearSelftest t link tag param => exact command _ _ _ _ _ fun x => withSide_effect param x .clearFailFlags
  | badKindCommand t link tag kind param =>
    simp only [exec, execBadKindCommand]
    split
    next => exact ⟨_, rfl, h t⟩
    next => exact command _ _ _ _ _ fun _ => .nothing

/-- A step idles, comes from the store it finds, or is a power-on. -/
theorem step_storeFrom {s s' : State} (hstep : step s = .next s') :
    (∃ pending, StoreFrom { s with pending := pending } s') ∨ ∃ pending, s' = { State.reset with pending := pending } := by
  unfold step at hstep
  split at hstep
  next =>
    cases hstep
    exact .inl ⟨s.pending, .start⟩
  next i rest _ =>
    by_cases hi : i = .powerOn
    · rw [hi] at hstep
      cases hstep
      exact .inr ⟨rest, rfl⟩
    · obtain ⟨s1, hexec, hfrom⟩ := exec_storeFrom { s with pending := rest } hi
      rw [hexec] at hstep
      cases hstep
      exact .inl ⟨rest, hfrom⟩

/-! ### After power-on (R176) -/

theorem reset_tables_sound : State.reset.tables.sound := by
  refine ⟨rfl, fun k c hc => ?_, by decide⟩
  rw [reset_kind] at hc
  cases hc

theorem reset_corruptionSound : State.reset.corruptionSound := by
  have hgood : ∀ k, (State.reset.tables.kind k).corrupt = true ↔ False := fun k => by rw [reset_kind]; simp
  refine ⟨List.nodup_nil, fun k => (iff_of_false List.not_mem_nil id).trans (hgood k).symm, ?_⟩
  rw [exists_congr hgood]
  exact iff_of_false (by decide) fun ⟨_, hk⟩ => hk

theorem reset_glareTablesSound : State.reset.glareTablesSound := by
  have hnot : State.reset.tables.usable .glare = false := by rw [TableStore.usable, reset_kind]; rfl
  exact ⟨fun hu => absurd hu (Bool.eq_false_iff.1 hnot), fun _ => ⟨hnot, rfl, rfl⟩⟩

/-- Settles O55: a step changes the table store by the operations of the store alone, each of which keeps the three
parts, and a power-on establishes them. -/
theorem everyStepKeepsTheTablesSound : Obligations.EveryStepKeepsTheTablesSound := by
  unfold Obligations.EveryStepKeepsTheTablesSound
  intro s s' hstep
  rcases step_storeFrom hstep with ⟨pending, hfrom⟩ | ⟨pending, rfl⟩
  · exact ⟨hfrom.tables_sound, hfrom.corruptionSound, hfrom.glareTablesSound⟩
  · exact ⟨fun _ => reset_tables_sound, fun _ => reset_corruptionSound, fun _ _ => reset_glareTablesSound⟩

end Sys2Proof.Machine
end

section
/-! SUPPORT. Reading with correction in closed form: the words as corrected, the state with its single errors repaired,
and where a double error ends the reading (R157, R160, R161, R172). -/

namespace Sys2Proof.Machine

/-! ### Repairing single errors -/

/-- A word that reads with a single error in a store is written back and reported. -/
def State.repairWord (ts : TableStore) (k : Kind) (b : Bank) (s : State) (off : Nat) : State :=
  if (ts.word k b off).errors = 1 then
    { s with tables := s.tables.writeWord k b off (ts.word k b off).data }.raise (.core .tableSec) (secDetail k b off)
  else s

theorem State.repaired_eq_foldl (s : State) (k : Kind) (b : Bank) (offs : List Nat) :
    s.repaired k b offs = offs.foldl (State.repairWord s.tables k b) s := rfl

section
variable {s : State} {k : Kind} {b : Bank}

theorem State.repaired_clean {off : Nat} (h : (s.tables.word k b off).errors ≠ 1) : s.repaired k b [off] = s := if_neg h

theorem State.repaired_single {off : Nat} (h : (s.tables.word k b off).errors = 1) :
    s.repaired k b [off] =
      { s with tables := s.tables.writeWord k b off (s.tables.word k b off).data }.raise (.core .tableSec)
        (secDetail k b off) := if_pos h

/-- What a write of a word and a report of TABLE_SEC keep, a repair keeps. -/
theorem State.repaired_induction {p : State → Prop} {offs : List Nat} (h : p s)
    (hword : ∀ (x : State) (off : Nat) (d : Word), p x →
      p ({ x with tables := x.tables.writeWord k b off d }.raise (.core .tableSec) (secDetail k b off))) :
    p (s.repaired k b offs) := by
  have hrepair : ∀ ts x off, p x → p (State.repairWord ts k b x off) := fun ts x off hx => by
    unfold State.repairWord
    split
    · exact hword x off _ hx
    · exact hx
  rw [State.repaired_eq_foldl]
  generalize s.tables = ts
  induction offs generalizing s with
  | nil => exact h
  | cons off rest ih => exact ih (hrepair ts s off h)

variable (s k b) (offs : List Nat)

theorem State.repaired_kinds : (s.repaired k b offs).tables.kinds = s.tables.kinds :=
  State.repaired_induction (p := fun x => x.tables.kinds = s.tables.kinds) rfl fun _ _ _ => id

theorem State.repaired_kind (j : Kind) : (s.repaired k b offs).tables.kind j = s.tables.kind j :=
  TableStore.kind_congr (s.repaired_kinds k b offs) j

theorem State.repaired_corruptions : (s.repaired k b offs).tables.corruptions = s.tables.corruptions :=
  State.repaired_induction (p := fun x => x.tables.corruptions = s.tables.corruptions) rfl fun _ _ _ => id

variable {s k b offs}

/-- A repair of a word leaves the words at other offsets. -/
theorem State.repaired_word {off other : Nat} (h : other ≠ off) :
    (s.repaired k b [off]).tables.word k b other = s.tables.word k b other := by
  by_cases herr : (s.tables.word k b off).errors = 1
  · rw [State.repaired_single herr]
    exact ramRead_ramWrite_other _ _ (ramAddress_ne h)
  · rw [State.repaired_clean herr]

/-- The words of a bank, each once, are repaired one after the other. -/
theorem State.repaired_cons {off : Nat} {rest : List Nat} (h : off ∉ rest) :
    s.repaired k b (off :: rest) = (s.repaired k b [off]).repaired k b rest := by
  rw [State.repaired_eq_foldl s, State.repaired_eq_foldl (s.repaired k b [off]), List.foldl_cons]
  refine List.foldl_ext _ _ (s.repaired k b [off]) fun x other hother => ?_
  have hword : (s.repaired k b [off]).tables.word k b other = s.tables.word k b other :=
    State.repaired_word fun e => h (e ▸ hother)
  simp only [State.repairWord, hword]

/-! ### A reading in closed form -/

theorem State.readWord_repaired {off : Nat} (h : (s.tables.word k b off).errors < 2) :
    s.readWord k b off = (some (s.tables.word k b off).data, s.repaired k b [off]) := by
  rcases s.readWord_cases k b off with ⟨herr, e⟩ | ⟨herr, e⟩ | ⟨herr, -⟩
  · rw [e, State.repaired_clean (by omega)]
  · rw [e, State.repaired_single herr]
  · omega

theorem State.readWord_refused {off : Nat} (h : 2 ≤ (s.tables.word k b off).errors) :
    s.readWord k b off = (none, if b = (s.tables.kind k).live then s.corruptKind k off else s) := by
  rcases s.readWord_cases k b off with ⟨herr, -⟩ | ⟨herr, -⟩ | ⟨-, e⟩
  · omega
  · omega
  · exact e

theorem TableStore.firstDouble_eq_none {ts : TableStore} :
    ts.firstDouble k b offs = none ↔ ∀ off ∈ offs, (ts.word k b off).errors < 2 := by
  simp [TableStore.firstDouble]

/-- The first double error of a reading has none before it. -/
theorem TableStore.firstDouble_eq_some {ts : TableStore} {e : Nat} :
    ts.firstDouble k b offs = some e ↔
      2 ≤ (ts.word k b e).errors ∧ ∃ before after, offs = before ++ e :: after ∧ ts.firstDouble k b before = none := by
  simp [TableStore.firstDouble, List.find?_eq_some_iff_append]

/-- The double errors of other words stand after a repair. -/
theorem State.repaired_firstDouble {off : Nat} (h : off ∉ offs) :
    (s.repaired k b [off]).tables.firstDouble k b offs = s.tables.firstDouble k b offs :=
  List.find?_congr fun o ho => by rw [State.repaired_word (ne_of_mem_of_not_mem ho h)]

theorem State.repaired_corrected {off : Nat} (h : off ∉ offs) :
    (s.repaired k b [off]).tables.corrected k b offs = s.tables.corrected k b offs :=
  List.map_congr_left fun o ho => by rw [State.repaired_word (ne_of_mem_of_not_mem ho h)]

/-- A reading without a double error answers the corrected words and repairs the single errors (R157). -/
theorem State.readWords_repaired (hd : offs.Nodup) (h : s.tables.firstDouble k b offs = none) :
    s.readWords k b offs = (.words (s.tables.corrected k b offs), s.repaired k b offs) := by
  induction offs generalizing s with
  | nil => rfl
  | cons off rest ih =>
    obtain ⟨hnot, hrest⟩ := List.nodup_cons.1 hd
    have herr := TableStore.firstDouble_eq_none.1 h
    have hnone : (s.repaired k b [off]).tables.firstDouble k b rest = none := by
      rw [State.repaired_firstDouble hnot]
      exact TableStore.firstDouble_eq_none.2 fun o ho => herr o (List.mem_cons_of_mem _ ho)
    simp only [State.readWords, State.readWord_repaired (herr off (List.mem_cons_self ..)), ih hrest hnone,
      State.repaired_corrected hnot, ← State.repaired_cons hnot]
    rfl

/-- A reading ends at its first double error, with the single errors before it repaired; in the live bank the kind
becomes CORRUPT (R157, R161). -/
theorem State.readWords_refused {before after : List Nat} {e : Nat} (hd : (before ++ e :: after).Nodup)
    (he : 2 ≤ (s.tables.word k b e).errors) (h : s.tables.firstDouble k b before = none) :
    s.readWords k b (before ++ e :: after) =
      (.doubleError e,
        if b = (s.tables.kind k).live then (s.repaired k b before).corruptKind k e else s.repaired k b before) := by
  induction before generalizing s with
  | nil =>
    simp only [List.nil_append, State.readWords, State.readWord_refused he]
    rfl
  | cons off rest ih =>
    obtain ⟨hnot, hrest⟩ := List.nodup_cons.1 hd
    have hnot' : off ∉ rest := fun hm => hnot (List.mem_append_left _ hm)
    have hne : e ≠ off := fun heq => hnot (by simp [heq])
    have herr := TableStore.firstDouble_eq_none.1 h
    have hnone : (s.repaired k b [off]).tables.firstDouble k b rest = none := by
      rw [State.repaired_firstDouble hnot']
      exact TableStore.firstDouble_eq_none.2 fun o ho => herr o (List.mem_cons_of_mem _ ho)
    have htail := ih hrest (by rwa [State.repaired_word hne]) hnone
    rw [State.repaired_kind, ← State.repaired_cons hnot'] at htail
    simp only [List.cons_append, State.readWords, State.readWord_repaired (herr off (List.mem_cons_self ..)), htail]

end

/-! ### Consecutive words -/

/-- In a reading of consecutive words, those before an offset are the consecutive words up to it. -/
theorem range'_before {start n e : Nat} {before after : List Nat}
    (h : List.range' start n = before ++ e :: after) : before = List.range' start (e - start) := by
  obtain ⟨m, -, hbefore, hafter⟩ := List.range'_eq_append_iff.1 h
  obtain ⟨he, -, -⟩ := List.range'_eq_cons_iff.1 hafter.symm
  rw [hbefore, ← he, Nat.mul_one, Nat.add_sub_cancel_left]

/-- A reading of consecutive words in closed form (R157). -/
theorem State.readWords_range' (s : State) (k : Kind) (b : Bank) (start n : Nat) :
    s.readWords k b (List.range' start n) =
      match s.tables.firstDouble k b (List.range' start n) with
      | none => (.words (s.tables.corrected k b (List.range' start n)), s.repaired k b (List.range' start n))
      | some e =>
        (.doubleError e,
          if b = (s.tables.kind k).live then
            (s.repaired k b (List.range' start (e - start))).corruptKind k e
          else s.repaired k b (List.range' start (e - start))) := by
  have hd : (List.range' start n).Nodup := List.nodup_range'
  cases hfirst : s.tables.firstDouble k b (List.range' start n) with
  | none => exact State.readWords_repaired hd hfirst
  | some e =>
    obtain ⟨he, before, after, hsplit, hnone⟩ := TableStore.firstDouble_eq_some.1 hfirst
    dsimp only
    rw [← range'_before hsplit, hsplit]
    exact State.readWords_refused (hsplit ▸ hd) he hnone

/-! ### A latch in closed form -/

section
variable {s : State} {k : Kind} {offs : List Nat}

theorem State.latch_words (hd : offs.Nodup) (hu : s.tables.usable k = true)
    (h : s.tables.firstDouble k (s.tables.kind k).live offs = none) :
    s.latch k offs =
      (some (s.tables.corrected k (s.tables.kind k).live offs), s.repaired k (s.tables.kind k).live offs) := by
  rw [State.latch, if_pos hu, State.readWords_repaired hd h]

theorem State.latch_corrupts {before after : List Nat} {e : Nat} (hd : (before ++ e :: after).Nodup)
    (hu : s.tables.usable k = true) (he : 2 ≤ (s.tables.word k (s.tables.kind k).live e).errors)
    (h : s.tables.firstDouble k (s.tables.kind k).live before = none) :
    s.latch k (before ++ e :: after) =
      (none, (s.repaired k (s.tables.kind k).live before).corruptKind k e) := by
  rw [State.latch, if_pos hu, State.readWords_refused hd he h, if_pos rfl]

end

/-- Settles O43: the layout kind by kind, and a latch as its reading. -/
theorem latchesReadTheLiveBank : Obligations.LatchesReadTheLiveBank := by
  unfold Obligations.LatchesReadTheLiveBank
  intro k offs s live
  refine ⟨by cases k <;> rfl, by cases k <;> rfl, fun b off => ?_, by simp [TableStore.usable], fun hu =>
    State.latch_not_usable hu offs, fun hd hu h => State.latch_words hd hu h, fun e hd hu h => ?_, fun off hc => ?_,
    fun off hc => ?_⟩
  · cases k <;> cases b <;> rfl
  · obtain ⟨he, before, after, rfl, hnone⟩ := TableStore.firstDouble_eq_some.1 h
    exact ⟨before, after, rfl, hnone, State.latch_corrupts hd hu he hnone⟩
  · rw [State.corruptKind, if_pos hc]
  · rw [State.corruptKind, if_neg (by simp [hc])]

end Sys2Proof.Machine
end

section
/-! SUPPORT. The store's own steps: the sync copy, the end of the clearing, and the state after power-on. -/

namespace Sys2Proof.Machine

/-! ### The sync copy (R168) -/

/-- A word copied into the shadow, and the copy moved on to the next word. -/
def State.putCopied (s : State) (k : Kind) (live : Bank) (c : SyncCopy) (data : Word) : State :=
  { s with
    tables :=
      (s.tables.writeWord k live.other c.next data).modKind k fun r =>
        { r with sync := if c.next + 1 < k.size then some { c with next := c.next + 1 } else none } }

section
variable {s : State} {k : Kind} {c : SyncCopy}

theorem State.copyWord_corrected (h : (s.tables.word k (s.tables.kind k).live c.next).errors < 2) :
    s.copyWord k c =
      (s.repaired k (s.tables.kind k).live [c.next]).putCopied k (s.tables.kind k).live c
        (s.tables.word k (s.tables.kind k).live c.next).data := by
  simp only [State.copyWord, State.readWord_repaired h]
  rfl

theorem State.copyWord_clean (h : (s.tables.word k (s.tables.kind k).live c.next).errors = 0) :
    s.copyWord k c =
      s.putCopied k (s.tables.kind k).live c (s.tables.word k (s.tables.kind k).live c.next).data := by
  rw [State.copyWord_corrected (by omega), State.repaired_clean (by omega)]

theorem State.copyWord_as_read (h : 2 ≤ (s.tables.word k (s.tables.kind k).live c.next).errors) :
    s.copyWord k c =
      (s.corruptKind k c.next).putCopied k (s.tables.kind k).live c
        (s.tables.word k (s.tables.kind k).live c.next).asRead := by
  simp only [State.copyWord, State.readWord_refused h, if_true]
  rfl

theorem State.syncStep_open (h : (s.tables.kind k).sync = none) : s.syncStep k = s := by rw [State.syncStep, h]

theorem State.syncStep_syncing (h : (s.tables.kind k).sync = some c) :
    s.syncStep k = if c.committed + c.next + 1 ≤ s.clock then s.copyWord k c else s := by rw [State.syncStep, h]

end

/-- Settles O44: a word copy that is due, by the number of wrong bits of the live word. -/
theorem syncWordCopyCopiesOneWord : Obligations.SyncWordCopyCopiesOneWord := by
  unfold Obligations.SyncWordCopyCopiesOneWord
  intro t k s s0 live done
  refine ⟨fun h => congrArg _ (State.syncStep_open (s := s0) h), fun c hc => ?_⟩
  intro w put
  have hstep : done = .next (if c.committed + c.next + 1 ≤ s0.clock then s0.copyWord k c else s0) :=
    congrArg _ (State.syncStep_syncing (s := s0) hc)
  refine ⟨fun hearly => ?_, fun hdue => ?_⟩
  · rw [hstep, if_neg (by omega)]
  · rw [if_pos (by omega)] at hstep
    refine ⟨fun h0 => ?_, fun h1 => ?_, fun h2 => ?_⟩
    · rw [hstep, State.copyWord_clean (s := s0) h0]
      rfl
    · rw [hstep, State.copyWord_corrected (s := s0) (show w.errors < 2 by omega)]
      rfl
    · rw [hstep, State.copyWord_as_read (s := s0) h2]
      rfl

/-- Settles O26: the clearing leaves the empty RAM, whose every word is clean. -/
theorem tableClearEndEndsTheClearing : Obligations.TableClearEndEndsTheClearing := by
  unfold Obligations.TableClearEndEndsTheClearing
  intro t s s0
  refine ⟨fun hclearing hdue => ⟨[], fun _ => rfl, ?_⟩, fun hnot => ?_⟩
  · exact congrArg _ (if_pos ⟨hclearing, hdue⟩)
  · refine congrArg _ (if_neg fun ⟨hclearing, hdue⟩ => ?_)
    rcases hnot with hnot | hnot
    · exact Bool.eq_false_iff.1 hnot hclearing
    · exact absurd hdue (Nat.not_le.2 hnot)

/-! ### After power-on (R176, R191, R48) -/

theorem reset_viewsSound : State.reset.viewsSound :=
  State.viewsSound_of_notReady (by rintro (_ | _ | _ | _) <;> rfl) (by rintro (_ | _ | _ | _) <;> rfl)

theorem reset_linksSound : State.reset.linksSound := by
  refine ⟨⟨?_, ?_⟩, ⟨?_, ?_⟩, fun h => by cases h⟩ <;> exact Nat.zero_le _

/-- Settles O59: each part of the power-on state is sound. -/
theorem thePowerOnStateIsSound : Obligations.ThePowerOnStateIsSound :=
  ⟨reset_tables_sound, reset_corruptionSound, FaultManager.initial_sound, reset_viewsSound, reset_linksSound,
    reset_glareTablesSound, Glare.initial_sound, Glare.initial_sound⟩

end Sys2Proof.Machine
end

section
/-! SUPPORT. The table commands (10.3) that read the store: the executor's taking of the command changes places with the
reading, and the reply is that of the words read. -/

namespace Sys2Proof.Machine

/-! ### The taking of a command and the table store -/

theorem kindOf_code (k : Kind) : kindOf (BitVec.ofNat 8 k.code) = some k := by cases k <;> rfl

@[simp] theorem State.takeCommand_tables (s : State) (link : Side) : (s.takeCommand link).tables = s.tables := by
  cases link <;> rfl

/-- A reading of a command's body, made before the executor takes the command. -/
theorem State.readWords_takeCommand (s : State) (link : Side) (k : Kind) (b : Bank) (offs : List Nat) :
    (s.takeCommand link).readWords k b offs =
      ((s.readWords k b offs).1, (s.readWords k b offs).2.takeCommand link) := by
  obtain ⟨hl, hr⟩ := State.takeCommand_congr (link := link) fun side => s.readWords_unit side k b offs
  conv_lhs => rw [State.takeCommand_eq, State.readWords_withBlocks]
  rw [(s.readWords k b offs).2.takeCommand_eq link, hl, hr]

/-- A command whose body does its work as before the executor took the command. -/
theorem command_of_body {s s1 : State} {t : Time} {link : Side} {kind tag : Byte} {param : List Byte} {r : Reply}
    {body : State → Reply × State} (h : s.ready link ⟨tag, kind, param⟩)
    (hbody : body ((s.advance t).takeCommand link) = (r, s1.takeCommand link)) :
    s.command t link kind tag param body = .next (s1.answered link ⟨tag, kind, param⟩ r.status r.param) := by
  rw [command_ready h, hbody]
  exact congrArg _ (respond_take s1 link _ r.status r.param)

/-! ### READ_TABLE (R170, R204) -/

theorem shadowOf_code (shadow : Bool) : shadowOf (if shadow then 1 else 0) = some shadow := by cases shadow <;> rfl

theorem readTableBody_allowed {ob nb : Byte} {k : Kind} (shadow : Bool) (hlow : 1 ≤ nb.toNat) (hhigh : nb.toNat ≤ 14)
    (hoff : ob.toNat < k.size) (s : State) :
    readTableBody [BitVec.ofNat 8 k.code, if shadow then 1 else 0, ob, nb] s =
      if shadow = true ∧ (s.tables.kind k).sync.isSome = true then (refuse .busy, s)
      else acceptedRead k shadow ob.toNat nb.toNat s := by
  simp only [readTableBody, kindOf_code, shadowOf_code]
  exact if_neg (by omega)

section
variable {s : State} {k : Kind} {shadow : Bool} {off count : Nat}

theorem acceptedRead_takeCommand (s : State) (link : Side) :
    acceptedRead k shadow off count (s.takeCommand link) =
      ((acceptedRead k shadow off count s).1, (acceptedRead k shadow off count s).2.takeCommand link) := by
  simp only [acceptedRead, State.readWords_takeCommand, State.takeCommand_tables]
  cases s.readWords k (namedBank s.tables k shadow) (List.range' off (min count (k.size - off))) with
  | mk read s1 => cases read <;> rfl

theorem acceptedRead_words
    (h : s.tables.firstDouble k (namedBank s.tables k shadow) (List.range' off (min count (k.size - off))) = none) :
    acceptedRead k shadow off count s =
      (⟨if off + count ≤ k.size then .ok else .truncated,
        BitVec.ofNat 8 (min count (k.size - off)) ::
          bankBytes (s.tables.corrected k (namedBank s.tables k shadow)
            (List.range' off (min count (k.size - off))))⟩,
        s.repaired k (namedBank s.tables k shadow) (List.range' off (min count (k.size - off)))) := by
  simp only [acceptedRead, State.readWords_range', h]
  simp [TableStore.corrected, byte1]

theorem Bank.other_ne (b : Bank) : b.other ≠ b := by cases b <;> decide

theorem acceptedRead_refused {e : Nat}
    (h : s.tables.firstDouble k (namedBank s.tables k shadow) (List.range' off (min count (k.size - off))) = some e) :
    acceptedRead k shadow off count s =
      (⟨.memoryError, [BitVec.ofNat 8 e]⟩,
        if shadow then s.repaired k (namedBank s.tables k shadow) (List.range' off (e - off))
        else (s.repaired k (namedBank s.tables k shadow) (List.range' off (e - off))).corruptKind k e) := by
  simp only [acceptedRead, State.readWords_range', h]
  cases shadow
  · simp only [namedBank, Bool.false_eq_true, if_false, if_true]
    rfl
  · simp only [namedBank, if_true, if_neg (Bank.other_ne _)]
    rfl

end

/-- Settles O12: an accepted read is its reading of consecutive words. -/
theorem readTableReturnsCorrectedWords : Obligations.ReadTableReturnsCorrectedWords := by
  unfold Obligations.ReadTableReturnsCorrectedWords
  intro t link tag ob nb k shadow s hlow hhigh hoff c r bank n offs done hready
  have hallowed := readTableBody_allowed shadow hlow hhigh hoff ((s.advance t).takeCommand link)
  rw [State.takeCommand_tables] at hallowed
  refine ⟨fun hbusy => ?_, fun hfree => ?_⟩
  · exact command_of_body hready (hallowed.trans (if_pos hbusy))
  · have hbody := (hallowed.trans (if_neg hfree)).trans (acceptedRead_takeCommand (s.advance t) link)
    have hdone : done = .next ((acceptedRead k shadow ob.toNat nb.toNat (s.advance t)).2.answered link c
        (acceptedRead k shadow ob.toNat nb.toNat (s.advance t)).1.status
        (acceptedRead k shadow ob.toNat nb.toNat (s.advance t)).1.param) := command_of_body hready hbody
    cases hfirst : s.tables.firstDouble k bank offs with
    | none =>
      dsimp only
      rw [hdone, acceptedRead_words (s := s.advance t) hfirst]
      rfl
    | some e =>
      dsimp only
      rw [hdone, acceptedRead_refused (s := s.advance t) hfirst]
      cases shadow <;> rfl

/-! ### COMMIT_TABLE (R164 to R167, R203) -/

theorem commitTableBody_kind (k : Kind) (c0 c1 : Byte) (s : State) :
    commitTableBody [BitVec.ofNat 8 k.code, c0, c1] s =
      if (s.tables.kind k).locked then (refuse .locked, s)
      else if (s.tables.kind k).sync.isSome then (refuse .busy, s)
      else acceptedCommit k (numberOf [c0, c1]) s := by
  simp only [commitTableBody, kindOf_code]

theorem State.switchBanks_takeCommand (s : State) (link : Side) (k : Kind) :
    (s.takeCommand link).switchBanks k = (s.switchBanks k).takeCommand link := by
  unfold State.switchBanks
  simp only [State.takeCommand_tables, State.takeCommand_clock]
  split <;> cases link <;> rfl

theorem State.resetOrigins_eq (s : State) (ws : List (Nat × Word)) :
    s.resetOrigins ws =
      (((s.modView .leftMain fun u => u.resetOrigin ws .leftMain).modView .leftWide fun u =>
        u.resetOrigin ws .leftWide).modView .rightMain fun u => u.resetOrigin ws .rightMain).modView .rightWide fun u =>
          u.resetOrigin ws .rightWide := rfl

theorem State.resetOrigins_takeCommand (s : State) (link : Side) (ws : List (Nat × Word)) :
    (s.takeCommand link).resetOrigins ws = (s.resetOrigins ws).takeCommand link := by
  simp only [State.resetOrigins_eq, State.modView_takeCommand]

theorem commitSucceeds_takeCommand (s : State) (link : Side) (k : Kind) (ws : List (Nat × Word)) :
    commitSucceeds k ws (s.takeCommand link) =
      ((commitSucceeds k ws s).1, (commitSucceeds k ws s).2.takeCommand link) := by
  simp only [commitSucceeds, State.switchBanks_takeCommand, State.resetOrigins_takeCommand, State.takeCommand_tables]
  split <;> rfl

theorem acceptedCommit_takeCommand (s : State) (link : Side) (k : Kind) (crc : Nat) :
    acceptedCommit k crc (s.takeCommand link) =
      ((acceptedCommit k crc s).1, (acceptedCommit k crc s).2.takeCommand link) := by
  simp only [acceptedCommit, State.readWords_takeCommand, State.takeCommand_tables]
  cases s.readWords k (s.tables.kind k).live.other (List.range k.size) with
  | mk read s1 =>
    cases read with
    | doubleError e => rfl
    | words ws =>
      dsimp only
      split
      next => rfl
      next =>
        cases firstInvalid k ws with
        | some e => rfl
        | none => exact commitSucceeds_takeCommand s1 link k ws

section
variable {s : State} {k : Kind} {crc : Nat}

/-- A commit whose shadow holds a double error (R164). -/
theorem acceptedCommit_refused {e : Nat}
    (h : s.tables.firstDouble k (s.tables.kind k).live.other (List.range k.size) = some e) :
    acceptedCommit k crc s =
      (⟨.memoryError, [BitVec.ofNat 8 e]⟩, s.repaired k (s.tables.kind k).live.other (List.range e)) := by
  rw [List.range_eq_range'] at h
  simp only [acceptedCommit, List.range_eq_range', State.readWords_range', h, if_neg (Bank.other_ne _), Nat.sub_zero]
  rfl

section
variable (h : s.tables.firstDouble k (s.tables.kind k).live.other (List.range k.size) = none)
include h

/-- A commit whose shadow does not agree with the CRC (R165). -/
theorem acceptedCommit_crcMismatch
    (hcrc : (crc16 (bankBytes (s.tables.corrected k (s.tables.kind k).live.other (List.range k.size)))).toNat ≠ crc) :
    acceptedCommit k crc s =
      (⟨.crcMismatch,
        bytes2 (crc16 (bankBytes (s.tables.corrected k (s.tables.kind k).live.other (List.range k.size)))).toNat⟩,
        s.repaired k (s.tables.kind k).live.other (List.range k.size)) := by
  simp only [acceptedCommit, State.readWords_repaired List.nodup_range h, if_pos hcrc]

variable
  (hcrc : (crc16 (bankBytes (s.tables.corrected k (s.tables.kind k).live.other (List.range k.size)))).toNat = crc)
include hcrc

/-- A commit whose shadow agrees with the CRC and is not valid (R166). -/
theorem acceptedCommit_invalid {e : Nat}
    (hinvalid : firstInvalid k (s.tables.corrected k (s.tables.kind k).live.other (List.range k.size)) = some e) :
    acceptedCommit k crc s =
      (⟨.invalid, [BitVec.ofNat 8 e]⟩, s.repaired k (s.tables.kind k).live.other (List.range k.size)) := by
  simp only [acceptedCommit, State.readWords_repaired List.nodup_range h, if_neg (not_not.2 hcrc), hinvalid, byte1]

/-- A commit that passes all three checks (R167). -/
theorem acceptedCommit_succeeds
    (hvalid : firstInvalid k (s.tables.corrected k (s.tables.kind k).live.other (List.range k.size)) = none) :
    acceptedCommit k crc s =
      commitSucceeds k (s.tables.corrected k (s.tables.kind k).live.other (List.range k.size))
        (s.repaired k (s.tables.kind k).live.other (List.range k.size)) := by
  simp only [acceptedCommit, State.readWords_repaired List.nodup_range h, if_neg (not_not.2 hcrc), hvalid]

end

end

/-- A CRC as two bytes, least significant first (R165, R203). -/
theorem bytes2_half (crc : Half) : bytes2 crc.toNat = [crc.truncate 8, (crc >>> 8).truncate 8] := by
  have hlow : BitVec.ofNat 8 crc.toNat = crc.truncate 8 := by bv_omega
  have hhigh : BitVec.ofNat 8 (crc.toNat / 256) = (crc >>> 8).truncate 8 := by
    apply BitVec.eq_of_toNat_eq
    simp [Nat.shiftRight_eq_div_pow]
  rw [bytes2, hlow, hhigh]

/-- A change of a record looks only at the record. -/
theorem TableStore.modKind_congr {ts : TableStore} {k : Kind} {f g : KindRecord → KindRecord}
    (h : f (ts.kind k) = g (ts.kind k)) : ts.modKind k f = ts.modKind k g := by
  rw [TableStore.modKind, TableStore.modKind, h]

theorem State.modView_id {s : State} {v : View} {f : ViewUnit → ViewUnit} (h : ∀ u, f u = u) : s.modView v f = s := by
  obtain rfl : f = id := funext h
  cases v <;> rfl

section
variable {s : State} {t : Time} {link : Side} {tag c0 c1 : Byte} {k : Kind}

/-- A COMMIT_TABLE that is taken, of a kind neither locked nor SYNCING. -/
theorem exec_commitTable (h : s.ready link ⟨tag, 0x11, [BitVec.ofNat 8 k.code, c0, c1]⟩)
    (hlocked : (s.tables.kind k).locked = false) (hsync : (s.tables.kind k).sync = none) :
    exec (.commitTable t link tag [BitVec.ofNat 8 k.code, c0, c1]) s =
      .next ((acceptedCommit k (c1 ++ c0).toNat (s.advance t)).2.answered link
        ⟨tag, 0x11, [BitVec.ofNat 8 k.code, c0, c1]⟩ (acceptedCommit k (c1 ++ c0).toNat (s.advance t)).1.status
        (acceptedCommit k (c1 ++ c0).toNat (s.advance t)).1.param) := by
  refine command_of_body h ?_
  rw [commitTableBody_kind, acceptedCommit_takeCommand, State.takeCommand_tables, numberOf_pair]
  simp [hlocked, hsync]

end

/-- The faults and the tables of a successful commit after a reading (R167). -/
theorem State.switchBanks_repaired (s : State) (k : Kind) (b : Bank) (offs : List Nat) :
    (s.repaired k b offs).switchBanks k =
      (let r := s.tables.kind k
      let s1 := s.repaired k b offs
      let list := s.tables.corruptions.filter fun e => e.1 != k
      { s1 with
        tables :=
          { s1.tables.modKind k (fun x =>
              { x with
                live := r.live.other, generation := nextGeneration r.generation, corrupt := false
                sync := some ⟨s1.clock, 0⟩ }) with
            corruptions := list }
        faults :=
          if r.corrupt = true ∧ list = [] then
            { s1.faults with conditions := withoutD s1.faults.conditions (.core .tableDed) }
          else s1.faults }) := by
  have hrecord := s.repaired_kind k b offs k
  have hlist := s.repaired_corruptions k b offs
  generalize s.repaired k b offs = s1 at hrecord hlist ⊢
  unfold State.switchBanks
  simp only [← hrecord, ← hlist]
  rw [TableStore.modKind_congr (g := fun x =>
    { x with
      live := (s1.tables.kind k).live.other, generation := nextGeneration (s1.tables.kind k).generation
      corrupt := false, sync := some ⟨s1.clock, 0⟩ }) rfl]
  split <;> rfl

/-- Settles O10: a commit whose shadow is readable, agrees with the CRC and is valid switches the banks. -/
theorem commitTableMakesTheShadowLive : Obligations.CommitTableMakesTheShadowLive := by
  unfold Obligations.CommitTableMakesTheShadowLive
  intro t link tag c0 c1 k s c r offs ws s1 list generation committed faults origin hready hlocked hsync hfirst hcrc hvalid
  have hcommit : acceptedCommit k (c1 ++ c0).toNat (s.advance t) = commitSucceeds k ws s1 :=
    acceptedCommit_succeeds (s := s.advance t) hfirst (congrArg BitVec.toNat hcrc) hvalid
  have hswitch : s1.switchBanks k = { s1 with tables := committed, faults := faults } :=
    State.switchBanks_repaired (s.advance t) k r.live.other offs
  have hgeneration : ((s1.switchBanks k).tables.kind k).generation = generation := by
    rw [State.switchBanks_kind_same, State.repaired_kind]
    rfl
  have horigins : (if k = .view then (s1.switchBanks k).resetOrigins ws else s1.switchBanks k) =
      ((((s1.switchBanks k).modView .leftMain (origin .leftMain)).modView .leftWide (origin .leftWide)).modView
        .rightMain (origin .rightMain)).modView .rightWide (origin .rightWide) := by
    by_cases hview : k = .view
    · simp only [origin, hview, if_true]
      rfl
    · have hsame : ∀ (x : State) (v : View), x.modView v (origin v) = x := fun x v =>
        State.modView_id fun _ => if_neg hview
      rw [if_neg hview, hsame, hsame, hsame, hsame]
  rw [← hswitch, ← horigins, ← hgeneration]
  show exec (.commitTable t link tag [BitVec.ofNat 8 k.code, c0, c1]) s = _
  rw [exec_commitTable hready hlocked hsync, hcommit]
  rfl

end Sys2Proof.Machine
end

section
/-! SUPPORT. LOAD_TABLE (R162, R202): the words that the bytes spell, and the shadow they are written into. -/

namespace Sys2Proof.Machine

/-! ### Words of bytes -/

/-- Four bytes as the word they spell, least significant first. -/
theorem ofNat_numberOf (a b c d : Byte) : BitVec.ofNat 32 (numberOf [a, b, c, d]) = d ++ c ++ b ++ a := by
  apply BitVec.eq_of_toNat_eq
  simp only [BitVec.toNat_append, BitVec.toNat_ofNat, numberOf]
  rw [← Nat.shiftLeft_add_eq_or_of_lt c.isLt, ← Nat.shiftLeft_add_eq_or_of_lt b.isLt,
    ← Nat.shiftLeft_add_eq_or_of_lt a.isLt]
  simp only [Nat.shiftLeft_eq]
  omega

/-- Fewer than four bytes spell no word. -/
theorem wordsOfBytes_short {data : List Byte} (h : ∀ a b c d rest, data = a :: b :: c :: d :: rest → False) :
    data.length / 4 = 0 ∧ wordsOfBytes data = [] := by
  refine ⟨Nat.div_eq_of_lt ?_, wordsOfBytes.eq_2 data h⟩
  rcases data with _ | ⟨a, _ | ⟨b, _ | ⟨c, _ | ⟨d, rest⟩⟩⟩⟩
  case cons.cons.cons.cons => exact (h a b c d rest rfl).elim
  all_goals simp

@[simp] theorem wordsOfBytes_length (data : List Byte) : (wordsOfBytes data).length = data.length / 4 := by
  induction data using wordsOfBytes.induct with
  | case1 a b c d rest ih =>
    simp only [wordsOfBytes, List.length_cons, ih]
    omega
  | case2 data hshort =>
    obtain ⟨hlength, hnil⟩ := wordsOfBytes_short hshort
    rw [hlength, hnil, List.length_nil]

theorem wordsOfBytes_getElem? {data : List Byte} {i : Nat} (h : i < data.length / 4) :
    (wordsOfBytes data)[i]? =
      some (data.getD (4 * i + 3) 0 ++ data.getD (4 * i + 2) 0 ++ data.getD (4 * i + 1) 0 ++ data.getD (4 * i) 0) := by
  induction data using wordsOfBytes.induct generalizing i with
  | case1 a b c d rest ih =>
    cases i with
    | zero => exact congrArg some (ofNat_numberOf a b c d)
    | succ i =>
      rw [wordsOfBytes, List.getElem?_cons_succ, ih (by simp only [List.length_cons] at h; omega)]
      rfl
  | case2 data hshort =>
    rw [(wordsOfBytes_short hshort).1] at h
    cases h

/-! ### The shadow after a load -/

section
variable {k : Kind}

theorem TableStore.load_eq (ts : TableStore) (off : Nat) (ws : List Word) :
    ts.load k off ws = { ts with ram := (ts.load k off ws).ram } := by
  obtain ⟨hkinds, hlist, hpos, hdue⟩ := TableStore.load_rest (k := k) ws ts off
  rw [← hkinds, ← hlist, ← hpos, ← hdue]

/-- A load leaves the words outside its range. -/
theorem TableStore.load_other (ws : List Word) {ts : TableStore} {off addr : Nat}
    (h : ∀ i, i < ws.length → addr ≠ ramAddress k (ts.kind k).live.other (off + i)) :
    ramRead (ts.load k off ws).ram addr = ramRead ts.ram addr := by
  induction ws generalizing ts off with
  | nil => rfl
  | cons w rest ih =>
    have hrest := ih (ts := ts.writeWord k (ts.kind k).live.other off w) (off := off + 1) fun i hi => by
      rw [TableStore.writeWord_kind, Nat.add_assoc, Nat.add_comm 1]
      exact h (i + 1) (Nat.succ_lt_succ hi)
    exact hrest.trans (ramRead_ramWrite_other _ _ (h 0 (Nat.succ_pos _)))

/-- A load writes its words into the shadow at consecutive offsets, with fresh check bits (R162). -/
theorem TableStore.load_word (ws : List Word) {ts : TableStore} {off i : Nat} {w : Word}
    (hwf : ramWf ts.ram = true) (hfit : off + ws.length ≤ k.size) (hw : ws[i]? = some w) :
    ramRead (ts.load k off ws).ram (ramAddress k (ts.kind k).live.other (off + i)) = TableWord.fresh w := by
  induction ws generalizing ts off i with
  | nil => cases hw
  | cons x rest ih =>
    rw [List.length_cons] at hfit
    have hwritten := TableStore.writeWord_wf hwf (show off < k.size by omega) (ts.kind k).live.other x
    cases i with
    | zero =>
      cases hw
      refine (TableStore.load_other rest fun i _ => ramAddress_ne (by omega)).trans ?_
      exact ramRead_ramWrite_same hwf _ _
    | succ i =>
      have hrest := ih (off := off + 1) hwritten (by omega) hw
      rwa [TableStore.writeWord_kind, Nat.add_assoc, Nat.add_comm 1] at hrest

end

/-! ### The command -/

theorem loadTableBody_allowed {ob : Byte} {k : Kind} {data : List Byte} (hlow : 4 ≤ data.length)
    (hhigh : data.length ≤ 58) (hoff : ob.toNat < k.size) (s : State) :
    loadTableBody (BitVec.ofNat 8 k.code :: ob :: data) s =
      if (s.tables.kind k).locked then (refuse .locked, s)
      else if (s.tables.kind k).sync.isSome then (refuse .busy, s)
      else acceptedLoad k ob.toNat data s := by
  simp only [loadTableBody, kindOf_code]
  exact if_neg (by omega)

theorem acceptedLoad_takeCommand (k : Kind) (off : Nat) (data : List Byte) (s : State) (link : Side) :
    acceptedLoad k off data (s.takeCommand link) =
      ((acceptedLoad k off data s).1, (acceptedLoad k off data s).2.takeCommand link) := by
  cases link <;> rfl

/-- What an accepted load answers, and what it changes (R202). -/
theorem acceptedLoad_eq (k : Kind) (off : Nat) (data : List Byte) (s : State) :
    acceptedLoad k off data s =
      (⟨if data.length % 4 = 0 ∧ min (data.length / 4) (k.size - off) = data.length / 4 then .ok else .truncated,
        [BitVec.ofNat 8 (min (data.length / 4) (k.size - off))]⟩,
        { s with
          tables :=
            { s.tables with ram := (s.tables.load k off ((wordsOfBytes data).take (k.size - off))).ram } }) := by
  have hstatus : (data.length % 4 = 0 ∧ (wordsOfBytes data).length ≤ k.size - off) ↔
      (data.length % 4 = 0 ∧ min (data.length / 4) (k.size - off) = data.length / 4) := by
    rw [wordsOfBytes_length, min_eq_left_iff]
  have hcount : ((wordsOfBytes data).take (k.size - off)).length = min (data.length / 4) (k.size - off) := by
    rw [List.length_take, wordsOfBytes_length, min_comm]
  simp only [acceptedLoad, hstatus, hcount, byte1, ← TableStore.load_eq]

/-- Settles O9: an accepted load writes the words that fit into the shadow. -/
theorem loadTableWritesTheShadowBank : Obligations.LoadTableWritesTheShadowBank := by
  unfold Obligations.LoadTableWritesTheShadowBank
  intro t link tag ob k data s hlow hhigh hoff hwf c shadow n hready
  have hallowed := loadTableBody_allowed hlow hhigh hoff ((s.advance t).takeCommand link)
  rw [State.takeCommand_tables, State.advance_tables] at hallowed
  refine ⟨fun hlocked => ?_, fun hlocked hsync => ?_, fun hlocked hsync => ?_⟩
  · exact command_of_body hready (hallowed.trans (if_pos hlocked))
  · exact command_of_body hready (hallowed.trans ((if_neg (Bool.eq_false_iff.1 hlocked)).trans (if_pos hsync)))
  · have hbody := hallowed.trans ((if_neg (Bool.eq_false_iff.1 hlocked)).trans (if_neg (by simp [hsync])))
    rw [acceptedLoad_takeCommand, acceptedLoad_eq] at hbody
    have hfit : ((wordsOfBytes data).take (k.size - ob.toNat)).length = n := by
      rw [List.length_take, wordsOfBytes_length, min_comm]
    refine ⟨_, command_of_body hready hbody, fun i hi => ?_, fun a ha => ?_⟩
    · refine TableStore.load_word _ hwf (by omega) ?_
      rw [List.getElem?_take_of_lt (by omega), wordsOfBytes_getElem? (by omega)]
    · exact TableStore.load_other _ fun i hi => ha i (hfit ▸ hi)


end Sys2Proof.Machine
end

section
/-! SUPPORT. The validation of a commit (R166, R178): the fields of a word are the rows of the formats, the bits outside
them are 0 exactly when the fields make up the word, and the cross-field rules are those charged to it. -/

namespace Sys2Proof.Machine

/-! ### Fields and rows (R178) -/

/-- The field that a row of the formats gives. -/
def FormatRow.field (r : FormatRow) : FieldSpec := ⟨r.lo, r.width, r.least, r.most⟩

/-- The rows of a kind that a word has. -/
def rowsOf (k : Kind) (off : Nat) : List FormatRow :=
  (formatRows.filter fun r => r.kind == k).filter fun r => r.words.contains off

theorem mem_rowsOf {k : Kind} {off : Nat} {r : FormatRow} :
    r ∈ rowsOf k off ↔ r ∈ formatRows ∧ r.kind = k ∧ off ∈ r.words := by
  simp only [rowsOf, List.mem_filter, beq_iff_eq, List.contains_iff_mem, and_assoc]

/-- The fields of a word are the rows that it has. -/
theorem rowsOf_field {k : Kind} {off : Nat} (h : off < k.size) : (rowsOf k off).map FormatRow.field = fieldsOf k off := by
  have hall : ∀ k : Kind, k ≠ .tone → ∀ off < k.size, (rowsOf k off).map FormatRow.field = fieldsOf k off := by
    intro k hk
    cases k
    case tone => exact absurd rfl hk
    all_goals decide
  by_cases hk : k = .tone
  · subst hk
    have hrows : formatRows.filter (fun r => r.kind == .tone) =
        [⟨.tone, List.range 132, 0, 20, 0, 1048575⟩, ⟨.tone, List.range 132, 20, 10, 0, 1023⟩] := by decide
    have hword : (List.range 132).contains off = true := List.contains_iff_mem.2 (List.mem_range.2 h)
    simp only [rowsOf, hrows, List.filter_cons, hword, if_true, List.filter_nil, List.map_cons, List.map_nil]
    rfl
  · exact hall k hk off h

/-- The fields of a word do not overlap, and come from the lowest bit up. -/
theorem fieldsOf_pairwise (k : Kind) (off : Nat) :
    (fieldsOf k off).Pairwise fun f g => f.lo + f.width ≤ g.lo := by
  cases k <;> simp only [fieldsOf] <;> (try split) <;> decide

/-! ### The bits outside the fields -/

theorem bits_lt (w : Word) (lo n : Nat) : bits w lo n < 2 ^ n := Nat.mod_lt _ (Nat.two_pow_pos n)

theorem bits_testBit (w : Word) (lo n i : Nat) : (bits w lo n).testBit i = (decide (i < n) && w.toNat.testBit (lo + i)) := by
  rw [bits, Nat.testBit_mod_two_pow, Nat.testBit_shiftRight]

/-- Fields from a bit up make up a multiple of its value. -/
theorem fieldBits_dvd {fs : List FieldSpec} {m : Nat} (w : Word) (h : ∀ f ∈ fs, m ≤ f.lo) : 2 ^ m ∣ fieldBits fs w := by
  refine List.dvd_sum fun x hx => ?_
  obtain ⟨f, hf, rfl⟩ := List.mem_map.1 hx
  exact Dvd.dvd.mul_left (Nat.pow_dvd_pow 2 (h f hf)) _

/-- A bit of the fields' value is that bit of the word where a field has it, and 0 elsewhere. -/
theorem fieldBits_testBit {fs : List FieldSpec} (w : Word) (h : fs.Pairwise fun f g => f.lo + f.width ≤ g.lo) (i : Nat) :
    (fieldBits fs w).testBit i = true ↔ w.toNat.testBit i = true ∧ ∃ f ∈ fs, f.lo ≤ i ∧ i < f.lo + f.width := by
  induction fs with
  | nil => simp [fieldBits]
  | cons f rest ih =>
    obtain ⟨hfirst, hrest⟩ := List.pairwise_cons.1 h
    obtain ⟨q, hq⟩ := fieldBits_dvd w hfirst
    have hlt : bits w f.lo f.width * 2 ^ f.lo < 2 ^ (f.lo + f.width) := by
      rw [Nat.pow_add, Nat.mul_comm]
      exact Nat.mul_lt_mul_of_pos_left (bits_lt w f.lo f.width) (Nat.two_pow_pos _)
    have hsum : fieldBits (f :: rest) w = 2 ^ (f.lo + f.width) * q + bits w f.lo f.width * 2 ^ f.lo := by
      rw [← hq, Nat.add_comm]
      rfl
    have hbelow : i < f.lo + f.width → ¬ ∃ g ∈ rest, g.lo ≤ i ∧ i < g.lo + g.width := fun hi ⟨g, hg, hlo, _⟩ => by
      have := hfirst g hg
      omega
    rw [hsum, Nat.testBit_two_pow_mul_add q hlt, List.exists_mem_cons_iff]
    split
    next hi =>
      rw [Nat.testBit_mul_two_pow, bits_testBit]
      by_cases hlo : f.lo ≤ i
      · have hin : i - f.lo < f.width := by omega
        simp [hlo, hi, hin, Nat.add_sub_cancel' hlo]
      · simp [hlo, hbelow hi]
    next hi =>
      have htail : q.testBit (i - (f.lo + f.width)) = (fieldBits rest w).testBit i := by
        rw [hq, Nat.testBit_two_pow_mul]
        simp [Nat.le_of_not_lt hi]
      rw [htail, ih hrest]
      simp [hi]

/-- The fields make up the word exactly when every bit outside them is 0 (R166). -/
theorem fieldBits_eq_iff {fs : List FieldSpec} (w : Word) (h : fs.Pairwise fun f g => f.lo + f.width ≤ g.lo) :
    fieldBits fs w = w.toNat ↔
      ∀ i, i < 32 → w.getLsbD i = true → ∃ f ∈ fs, f.lo ≤ i ∧ i < f.lo + f.width := by
  constructor
  · intro heq i _ hi
    have hbit : (fieldBits fs w).testBit i = true := by rw [heq]; exact hi
    exact ((fieldBits_testBit w h i).1 hbit).2
  · intro hcover
    refine Nat.eq_of_testBit_eq fun i => Bool.eq_iff_iff.2 ((fieldBits_testBit w h i).trans ⟨And.left, fun hi => ⟨hi, ?_⟩⟩)
    exact hcover i (BitVec.lt_of_getLsbD hi) hi

/-! ### Ranges (R166, R178) -/

theorem rangesOk_iff {k : Kind} {off : Nat} (h : off < k.size) (w : Word) :
    rangesOk k off w = true ↔
      (∀ i, i < 32 → w.getLsbD i = true →
        ∃ r, r ∈ formatRows ∧ r.kind = k ∧ off ∈ r.words ∧ r.lo ≤ i ∧ i < r.lo + r.width) ∧
      (∀ r, r ∈ formatRows → r.kind = k → off ∈ r.words →
        r.least ≤ bits w r.lo r.width ∧ bits w r.lo r.width ≤ r.most) ∧
      (k = .policy → 2 ≤ off → bits w 4 3 ≤ 4 ∨ bits w 4 3 = 7) := by
  have hcover : (fieldBits (fieldsOf k off) w == w.toNat) = true ↔ ∀ i, i < 32 → w.getLsbD i = true →
      ∃ r, r ∈ formatRows ∧ r.kind = k ∧ off ∈ r.words ∧ r.lo ≤ i ∧ i < r.lo + r.width := by
    rw [beq_iff_eq, fieldBits_eq_iff w (fieldsOf_pairwise k off), ← rowsOf_field h]
    simp only [List.mem_map, exists_exists_and_eq_and, mem_rowsOf]
    simp only [FormatRow.field, and_assoc]
  have hranges : ((fieldsOf k off).all fun f =>
        decide (f.least ≤ bits w f.lo f.width) && decide (bits w f.lo f.width ≤ f.most)) = true ↔
      ∀ r, r ∈ formatRows → r.kind = k → off ∈ r.words →
        r.least ≤ bits w r.lo r.width ∧ bits w r.lo r.width ≤ r.most := by
    rw [← rowsOf_field h]
    simp only [List.all_map, List.all_eq_true, mem_rowsOf, Function.comp_apply, Bool.and_eq_true, decide_eq_true_eq,
      and_imp]
    rfl
  have hsource : (!(k == .policy && decide (2 ≤ off)) || decide (bits w 4 3 ≤ 4) || bits w 4 3 == 7) = true ↔
      (k = .policy → 2 ≤ off → bits w 4 3 ≤ 4 ∨ bits w 4 3 = 7) := by
    by_cases hk : k = .policy <;> by_cases hoff : 2 ≤ off <;> simp [hk, hoff]
  rw [rangesOk, Bool.and_eq_true, Bool.and_eq_true, hcover, hranges, hsource, and_assoc]

/-! ### Cross-field rules (R166) -/

/-- The linear value of the largest code (R32). -/
theorem decompand_top {p : DevProfile} (h1 : p.c1 ≤ 4095) (h2 : p.c2 ≤ 4095) (h3 : p.c3 ≤ 4095) :
    decompand p 4095 =
      p.c1 * 2 ^ p.g0 + (p.c2 - p.c1) * 2 ^ p.g1 + (p.c3 - p.c2) * 2 ^ p.g2 + (4095 - p.c3) * 2 ^ p.g3 := by
  simp only [decompand, if_neg (Nat.not_lt.2 h1), if_neg (Nat.not_lt.2 h2), if_neg (Nat.not_lt.2 h3)]

section
variable (ws : List (Nat × Word)) {off : Nat}

theorem crossOk_profile (k : Kind) (hk : k = .cameraL ∨ k = .cameraR) :
    crossOk k ws off = true ↔ crossRulesHold k ws off := by
  have hlt : ∀ w lo, bits w lo 12 ≤ 4095 := fun w lo => Nat.le_of_lt_succ (bits_lt w lo 12)
  have htop := decompand_top (p := devProfileOf ws) (hlt _ _) (hlt _ _) (hlt _ _)
  have hrule : ∀ k, k = .cameraL ∨ k = .cameraR → crossOk k ws off = crossOk .cameraL ws off ∧
      crossRulesHold k ws off = crossRulesHold .cameraL ws off := by rintro k (rfl | rfl) <;> exact ⟨rfl, rfl⟩
  rw [(hrule k hk).1, (hrule k hk).2]
  simp only [crossOk, crossRulesHold]
  split
  case h_4 off h2 h3 h4 => exact iff_of_true rfl ⟨fun h => absurd h h2, fun h => absurd h h3, fun h => absurd h h4⟩
  all_goals simp only [Bool.and_eq_true, decide_eq_true_eq, htop]
  all_goals simp [devProfileOf, Config.lumaMax, and_assoc]

theorem crossOk_view (h : off < 32) : crossOk .view ws off = true ↔ crossRulesHold .view ws off := by
  obtain ⟨v, j, hv, hj, rfl⟩ : ∃ v j, v < 4 ∧ j < 8 ∧ off = 8 * v + j :=
    ⟨off / 8, off % 8, by omega, by omega, (Nat.div_add_mod off 8).symm⟩
  have hdiv : (8 * v + j) / 8 = v := by omega
  have hmod : (8 * v + j) % 8 = j := by omega
  have hmain : v % 2 = 0 ↔ v = 0 ∨ v = 2 := by omega
  have hrules : crossRulesHold .view ws (8 * v + j) ↔
      (j = 1 → bits (wordAt ws (8 * v + 1)) 0 11 ≤ bits (wordAt ws (8 * v)) 0 11 ∧
        bits (wordAt ws (8 * v)) 0 11 ≤ bits (wordAt ws (8 * v + 1)) 16 11) ∧
      (j = 2 → bits (wordAt ws (8 * v + 2)) 0 11 ≤ bits (wordAt ws (8 * v)) 16 11 ∧
        bits (wordAt ws (8 * v)) 16 11 ≤ bits (wordAt ws (8 * v + 2)) 16 11) ∧
      (j = 3 → bits (wordAt ws (8 * v)) 0 11 + 40 * bits (wordAt ws (8 * v + 3)) 0 6 ≤ 1920 ∧
        bits (wordAt ws (8 * v)) 16 11 +
          (if v = 0 ∨ v = 2 then 16 * bits (wordAt ws (8 * v + 3)) 0 6 else 9 * bits (wordAt ws (8 * v + 3)) 0 6) ≤
            1280) := by
    constructor
    · intro hall
      obtain ⟨h1, h2, h3⟩ := hall v hv
      exact ⟨fun hj => h1 (by omega), fun hj => h2 (by omega), fun hj => h3 (by omega)⟩
    · rintro ⟨h1, h2, h3⟩ v' hv'
      by_cases hsame : v' = v
      · subst hsame
        exact ⟨fun he => h1 (by omega), fun he => h2 (by omega), fun he => h3 (by omega)⟩
      · exact ⟨fun he => by omega, fun he => by omega, fun he => by omega⟩
  rw [hrules]
  simp only [crossOk, hdiv, hmod, hmain, ite_mul]
  split
  case h_4 h1 h2 h3 => exact iff_of_true rfl ⟨fun h => absurd h h1, fun h => absurd h h2, fun h => absurd h h3⟩
  all_goals simp

/-- A rule charged to knot `i` of a curve bears on one word. -/
theorem forall_tone_word (h : off < 132) (p : Nat → Prop) :
    (∀ c i, c < 4 → i ≤ 32 → off = 33 * c + i → p i) ↔ p (off % 33) :=
  ⟨fun hp => hp (off / 33) (off % 33) (by omega) (by omega) (Nat.div_add_mod off 33).symm, fun hp c i _ _ he => by
    obtain rfl : off % 33 = i := by omega
    exact hp⟩

theorem crossOk_tone (h : off < 132) : crossOk .tone ws off = true ↔ crossRulesHold .tone ws off := by
  simp only [crossOk, crossRulesHold, Config.lumaMax]
  rw [forall_tone_word h fun i => (i = 0 → bits (wordAt ws off) 0 20 = 0) ∧
    (1 ≤ i → bits (wordAt ws (off - 1)) 0 20 < bits (wordAt ws off) 0 20 ∧
      bits (wordAt ws (off - 1)) 20 10 ≤ bits (wordAt ws off) 20 10) ∧
    (i = 32 → bits (wordAt ws off) 0 20 = 1048575)]
  generalize off % 33 = i
  by_cases hfirst : i = 0
  · simp [hfirst]
  · have hlow : 1 ≤ i := Nat.one_le_iff_ne_zero.2 hfirst
    simp [hfirst, hlow, ← imp_iff_not_or]

/-- A rule charged to the knots of the dimming curve after its first. -/
theorem forall_light_word (p : Prop) :
    (∀ i, 1 ≤ i → i ≤ 16 → off = 6 + i → p) ↔ (7 ≤ off → off ≤ 22 → p) :=
  ⟨fun hp hlow hhigh => hp (off - 6) (by omega) (by omega) (by omega), fun hp i _ _ he => hp (by omega) (by omega)⟩

theorem crossOk_light : crossOk .light ws off = true ↔ crossRulesHold .light ws off := by
  simp only [crossOk, crossRulesHold, forall_light_word]
  split
  next => simp
  next => simp
  next => simp
  next => simp [and_comm, and_assoc]
  next h0 h2 h6 h22 =>
    have hlast : off ≤ 22 ↔ off ≤ 21 := by
      have : off ≠ 22 := h22
      omega
    simp only [Bool.or_eq_true, Bool.not_eq_true', Bool.eq_false_iff, ne_eq, Bool.and_eq_true, decide_eq_true_eq,
      ← imp_iff_not_or, and_imp, hlast]
    exact ⟨fun h => ⟨fun he => absurd he h0, fun he => absurd he h2, fun he => absurd he h6, h, fun he => absurd he h22⟩,
      fun ⟨_, _, _, h, _⟩ => h⟩

/-- The cross-field rules charged to a word (R166). -/
theorem crossOk_iff {k : Kind} (h : off < k.size) : crossOk k ws off = true ↔ crossRulesHold k ws off := by
  cases k with
  | cameraL => exact crossOk_profile ws .cameraL (.inl rfl)
  | cameraR => exact crossOk_profile ws .cameraR (.inr rfl)
  | view => exact crossOk_view ws h
  | tone => exact crossOk_tone ws h
  | glare => exact iff_of_true rfl trivial
  | light => exact crossOk_light ws
  | policy => exact iff_of_true rfl trivial
  | timing =>
    simp only [crossOk, crossRulesHold, Bool.or_eq_true, bne_iff_ne, decide_eq_true_eq, ← imp_iff_not_or]

/-! ### Words and banks (R166) -/

theorem policyEntryUnchecked_iff (k : Kind) (off : Nat) (w : Word) :
    policyEntryUnchecked k off w = true ↔ k = .policy ∧ 2 ≤ off ∧ w.getLsbD 0 = false := by
  simp [policyEntryUnchecked, flag, and_assoc]

/-- A word passes validation exactly when the rules of R166 allow it. -/
theorem wordValid_iff {k : Kind} (h : off < k.size) : wordValid k ws off = true ↔ wordAllowed k ws off := by
  rw [wordValid, Bool.or_eq_true, Bool.and_eq_true, policyEntryUnchecked_iff, rangesOk_iff h, crossOk_iff ws h, wordAllowed]
  simp only [and_assoc]

theorem firstInvalid_eq_some (k : Kind) (e : Nat) :
    firstInvalid k ws = some e ↔ e < k.size ∧ ¬ wordAllowed k ws e ∧ ∀ off, off < e → wordAllowed k ws off := by
  rw [firstInvalid, List.find?_range_eq_some]
  simp only [List.mem_range, Bool.not_not, Bool.not_eq_true']
  constructor
  · rintro ⟨hbad, he, hbefore⟩
    refine ⟨he, fun hall => ?_, fun off hoff => (wordValid_iff ws (hoff.trans he)).1 (hbefore off hoff)⟩
    rw [(wordValid_iff ws he).2 hall] at hbad
    cases hbad
  · rintro ⟨he, hbad, hbefore⟩
    exact ⟨Bool.eq_false_iff.2 fun hall => hbad ((wordValid_iff ws he).1 hall), he,
      fun off hoff => (wordValid_iff ws (hoff.trans he)).2 (hbefore off hoff)⟩

theorem firstInvalid_eq_none (k : Kind) : firstInvalid k ws = none ↔ ∀ off, off < k.size → wordAllowed k ws off := by
  rw [firstInvalid, List.find?_range_eq_none]
  simp only [Bool.not_not]
  exact forall₂_congr fun off h => wordValid_iff ws h

end

/-! ### The refusals of a commit (R164 to R166, R203) -/

section
variable {s : State} {t : Time} {link : Side} {tag c0 c1 : Byte} {k : Kind}

/-- A COMMIT_TABLE that is refused before it reads. -/
theorem exec_commitTable_refused {st : Status} (h : s.ready link ⟨tag, 0x11, [BitVec.ofNat 8 k.code, c0, c1]⟩)
    (hbody : ∀ x : State, x.tables = s.tables → commitTableBody [BitVec.ofNat 8 k.code, c0, c1] x = (refuse st, x)) :
    exec (.commitTable t link tag [BitVec.ofNat 8 k.code, c0, c1]) s =
      .next ((s.advance t).answered link ⟨tag, 0x11, [BitVec.ofNat 8 k.code, c0, c1]⟩ st []) :=
  command_of_body h (hbody _ (State.takeCommand_tables _ _))

end

/-- Settles O11: the model's validation is the rules of R166, and an accepted commit is refused in their order. -/
theorem commitTableRefusals : Obligations.CommitTableRefusals := by
  unfold Obligations.CommitTableRefusals
  refine ⟨fun k ws => ⟨firstInvalid_eq_some ws k, firstInvalid_eq_none ws k⟩, ?_⟩
  intro t link tag c0 c1 k s c r offs ws crc done hready
  refine ⟨fun hlocked => ?_, fun hlocked hsync => ?_, fun hlocked hsync => ?_⟩
  · exact exec_commitTable_refused hready fun x hx => by
      rw [commitTableBody_kind, hx]
      exact if_pos hlocked
  · exact exec_commitTable_refused hready fun x hx => by
      rw [commitTableBody_kind, hx]
      exact (if_neg (ne_true_of_eq_false hlocked)).trans (if_pos hsync)
  · have hdone := exec_commitTable (t := t) hready hlocked hsync
    cases hfirst : s.tables.firstDouble k r.live.other offs with
    | some e =>
      dsimp only
      rw [acceptedCommit_refused (s := s.advance t) hfirst] at hdone
      exact hdone
    | none =>
      refine ⟨fun hcrc => ?_, fun hcrc e hinvalid => ?_⟩
      · rw [acceptedCommit_crcMismatch (s := s.advance t) hfirst fun heq => hcrc (BitVec.eq_of_toNat_eq heq),
          bytes2_half] at hdone
        exact hdone
      · rw [acceptedCommit_invalid (s := s.advance t) hfirst (congrArg BitVec.toNat hcrc) hinvalid] at hdone
        exact hdone

end Sys2Proof.Machine
end

section
/-! SUPPORT. The scrubber (R173, R174): the place of an address, the next live address, and the disturbances. -/

namespace Sys2Proof.Machine

/-! ### The place of an address (R156) -/

theorem kindAt_eq_some {n off : Nat} {k : Kind} : kindAt n = some (k, off) ↔ off < k.size ∧ n = k.base + off := by
  constructor
  · intro h
    obtain ⟨j, hj, he⟩ := Option.map_eq_some_iff.1 h
    obtain ⟨rfl, rfl⟩ := Prod.mk.inj he
    have hin := List.find?_some hj
    simp only [Bool.and_eq_true, decide_eq_true_eq] at hin
    omega
  · rintro ⟨hoff, rfl⟩
    obtain ⟨j, hj⟩ : ∃ j, allKinds.find? (fun k' => decide (k'.base ≤ k.base + off) &&
        decide (k.base + off < k'.base + k'.size)) = some j :=
      Option.isSome_iff_exists.1 (List.find?_isSome.2 ⟨k, by cases k <;> decide, by simp [hoff]⟩)
    have hin := List.find?_some hj
    simp only [Bool.and_eq_true, decide_eq_true_eq] at hin
    obtain ⟨hlow, hhigh⟩ := hin
    have hplace : ramAddress j .bankA (k.base + off - j.base) = ramAddress k .bankA off := by
      simp only [ramAddress]
      omega
    obtain ⟨rfl, -, -⟩ := ramAddress_inj (by omega) hoff hplace
    rw [kindAt, hj, Option.map_some, Nat.add_sub_cancel_left]

theorem base_add_lt {k : Kind} {off : Nat} (h : off < k.size) : k.base + off < Config.bankWords := by
  cases k <;> simp only [Kind.size, Kind.base, Config.bankWords] at * <;> omega

/-- An address is located where the layout puts it. -/
theorem locate_eq_some {a off : Nat} {k : Kind} {b : Bank} :
    locate a = some (k, b, off) ↔ off < k.size ∧ a = ramAddress k b off := by
  unfold locate
  split
  next hlow =>
    cases b
    · simp [kindAt_eq_some, ramAddress]
    · have : a ≠ ramAddress k .bankB off := by
        simp only [ramAddress]
        omega
      simp [this]
  next hhigh =>
    cases b
    · simp only [ramAddress, Nat.add_zero]
      constructor
      · intro h
        simp at h
      · rintro ⟨ho, rfl⟩
        exact absurd (base_add_lt ho) hhigh
    · simp [kindAt_eq_some, ramAddress]
      omega

theorem TableStore.isLive_iff {ts : TableStore} {a : Nat} :
    ts.isLive a = true ↔ ∃ k off, off < Kind.size k ∧ a = ramAddress k (ts.kind k).live off := by
  constructor
  · intro h
    unfold TableStore.isLive at h
    split at h
    next => cases h
    next k b off hplace =>
      obtain ⟨ho, ha⟩ := locate_eq_some.1 hplace
      exact ⟨k, off, ho, (beq_iff_eq.1 h) ▸ ha⟩
  · rintro ⟨k, off, ho, ha⟩
    rw [TableStore.isLive, locate_eq_some.2 ⟨ho, ha⟩]
    exact beq_self_eq_true _

/-! ### The next address (R173) -/

/-- How far an address is ahead of the scrubber's position. -/
def ahead (pos a : Nat) : Nat := (a + 548 - pos) % 548

/-- The first address of a sort at or after a position is the one the least way ahead. -/
theorem find?_addressesFrom {p : Nat → Bool} {pos a : Nat} (hpos : pos < 548) (ha : a < 548) (hp : p a = true)
    (hleast : ∀ a', p a' = true → ahead pos a ≤ ahead pos a') : (addressesFrom pos).find? p = some a := by
  have hback : (pos + ahead pos a) % 548 = a := by
    unfold ahead
    omega
  have hfind : (List.range 548).find? (p ∘ fun i => (pos + i) % 548) = some (ahead pos a) := by
    refine List.find?_range_eq_some.2 ⟨?_, List.mem_range.2 (Nat.mod_lt _ (by decide)), fun j hj => ?_⟩
    · rw [Function.comp_apply, hback, hp]
    · rw [Bool.not_eq_true', Bool.eq_false_iff]
      intro hbefore
      have hle : ahead pos a ≤ ahead pos ((pos + j) % 548) := hleast _ hbefore
      unfold ahead at hle hj
      omega
  rw [addressesFrom, List.find?_map]
  exact (congrArg _ hfind).trans (congrArg some hback)

section
variable {s : State} {k : Kind} {off : Nat}

/-- A visit reads the live word the least way ahead, and the position moves past it. -/
theorem State.scrub_reads (hpos : s.tables.scrubPosition < 548) (ho : off < k.size)
    (hleast : ∀ k' off', off' < Kind.size k' →
      ahead s.tables.scrubPosition (ramAddress k (s.tables.kind k).live off) ≤
        ahead s.tables.scrubPosition (ramAddress k' (s.tables.kind k').live off')) :
    s.scrub =
      (({ s with
          tables :=
            { s.tables with
              scrubPosition := (ramAddress k (s.tables.kind k).live off + 1) % Config.ramWords } } : State).readWord k
        (s.tables.kind k).live off).2 := by
  have hfind : (addressesFrom s.tables.scrubPosition).find? s.tables.isLive =
      some (ramAddress k (s.tables.kind k).live off) := by
    have hlt : ramAddress k (s.tables.kind k).live off < Config.ramWords := ramAddress_lt ho _
    have hlive : s.tables.isLive (ramAddress k (s.tables.kind k).live off) = true :=
      TableStore.isLive_iff.2 ⟨k, off, ho, rfl⟩
    refine find?_addressesFrom hpos hlt hlive fun a' ha' => ?_
    obtain ⟨k', off', ho', rfl⟩ := TableStore.isLive_iff.1 ha'
    exact hleast k' off' ho'
  have hplace : locate (ramAddress k (s.tables.kind k).live off) = some (k, (s.tables.kind k).live, off) :=
    locate_eq_some.2 ⟨ho, rfl⟩
  unfold State.scrub
  simp only [hfind, hplace]

/-- What reading a word of the live bank does to the state, by the word's wrong bits (R157, R161). -/
theorem State.readWord_of_live {b : Bank} (hb : b = (s.tables.kind k).live) :
    (s.readWord k b off).2 =
      if (s.tables.word k b off).errors = 0 then s
      else if (s.tables.word k b off).errors = 1 then s.repaired k b [off]
      else s.corruptKind k off := by
  by_cases herr : (s.tables.word k b off).errors < 2
  · rw [State.readWord_repaired herr]
    by_cases h0 : (s.tables.word k b off).errors = 0
    · rw [if_pos h0]
      exact State.repaired_clean (by omega)
    · rw [if_neg h0, if_pos (by omega)]
  · rw [State.readWord_refused (by omega), if_pos hb, if_neg (by omega), if_neg (by omega)]

end

/-! ### Disturbances (R174) -/

theorem TableStore.disturb_other (ts : TableStore) (u : Upset) : ts.disturb u = { ts with ram := (ts.disturb u).ram } := by
  simp only [TableStore.disturb]
  split <;> rfl

/-- Disturbances change only stored words. -/
theorem TableStore.disturbs_other (upsets : List Upset) (ts : TableStore) :
    upsets.foldl TableStore.disturb ts = { ts with ram := (upsets.foldl TableStore.disturb ts).ram } := by
  induction upsets generalizing ts with
  | nil => rfl
  | cons u rest ih =>
    rw [List.foldl_cons, ih (ts.disturb u), ts.disturb_other u]

/-- A disturbance flips one bit, unless the word would then have three wrong bits (R156). -/
theorem TableStore.ramRead_disturb {ts : TableStore} (h : ramWf ts.ram = true) (u : Upset) (a : Nat) :
    let w := ramRead ts.ram u.addr.val
    let w' : TableWord := { w with flips := w.flips ^^^ BitVec.twoPow 39 u.bit.val }
    ramRead (ts.disturb u).ram a = if a = u.addr.val ∧ w'.errors ≤ 2 then w' else ramRead ts.ram a := by
  intro w w'
  by_cases herr : w'.errors ≤ 2
  · have hram : (ts.disturb u).ram = ramWrite ts.ram u.addr.val w' := congrArg TableStore.ram (if_pos herr)
    rw [hram]
    by_cases ha : a = u.addr.val
    · rw [if_pos ⟨ha, herr⟩, ha, ramRead_ramWrite_same h]
    · rw [if_neg fun hboth => ha hboth.1, ramRead_ramWrite_other _ _ ha]
  · have hram : (ts.disturb u).ram = ts.ram := congrArg TableStore.ram (if_neg herr)
    rw [hram, if_neg fun hboth => herr hboth.2]

/-! ### A visit (R173) -/

section
variable {s : State} {due : Nat} (hdue : s.tables.scrubDue = some due)
include hdue

theorem State.scrubIfDue_early (h : s.clock < due) : s.scrubIfDue = s := by
  simp only [State.scrubIfDue, hdue, if_neg (Nat.not_le.2 h)]

theorem State.scrubIfDue_reads {k : Kind} {off : Nat} {b : Bank} (h : due ≤ s.clock)
    (hpos : s.tables.scrubPosition < 548) (ho : off < k.size) (hb : b = (s.tables.kind k).live)
    (hleast : ∀ k' off', off' < Kind.size k' →
      ahead s.tables.scrubPosition (ramAddress k b off) ≤
        ahead s.tables.scrubPosition (ramAddress k' (s.tables.kind k').live off')) :
    s.scrubIfDue =
      (let s2 : State :=
        { s with
          tables :=
            { s.tables with
              scrubPosition := (ramAddress k b off + 1) % Config.ramWords
              scrubDue := some (due + Config.scrubInterval) } }
      if (s.tables.word k b off).errors = 0 then s2
      else if (s.tables.word k b off).errors = 1 then s2.repaired k b [off]
      else s2.corruptKind k off) := by
  subst hb
  have hscrub := State.scrub_reads (k := k) (off := off)
    (s := { s with tables := { s.tables with scrubDue := some (due + Config.scrubInterval) } }) hpos ho hleast
  simp only [State.scrubIfDue, hdue, if_pos h]
  exact hscrub.trans (State.readWord_of_live rfl)

end

/-- Settles O45: the scrubber's first live word is the one the least way ahead of its position. -/
theorem scrubberVisitReadsTheNextLiveWord : Obligations.ScrubberVisitReadsTheNextLiveWord := by
  unfold Obligations.ScrubberVisitReadsTheNextLiveWord
  refine ⟨?_, ?_, ?_⟩
  · intro t upsets s due hdue hpos s1 done address distance
    have hother : s1.tables = { s.tables with ram := s1.tables.ram } := TableStore.disturbs_other upsets s.tables
    have hdue1 : s1.tables.scrubDue = some due := (congrArg TableStore.scrubDue hother).trans hdue
    have hpos1 : s1.tables.scrubPosition = s.tables.scrubPosition := by rw [hother]
    have hkind : ∀ j, s1.tables.kind j = s.tables.kind j := TableStore.kind_congr (by rw [hother])
    refine ⟨fun hearly => congrArg _ (State.scrubIfDue_early hdue1 hearly), fun hnow k off ho hleast => ?_⟩
    have hlive : (s.tables.kind k).live = (s1.tables.kind k).live := by rw [hkind]
    have hvisit := State.scrubIfDue_reads hdue1 hnow (hpos1 ▸ hpos) ho hlive fun k' off' ho' => by
      rw [hkind, hpos1]
      exact hleast k' off' ho'
    rw [Config.ramWords, Config.scrubInterval] at hvisit
    exact congrArg _ hvisit
  · intro t upsets s hnone
    have hother := TableStore.disturbs_other upsets s.tables
    have hnone1 : ((s.advance t).disturbAll upsets).tables.scrubDue = none :=
      (congrArg TableStore.scrubDue hother).trans hnone
    have hstill : ((s.advance t).disturbAll upsets).scrubIfDue = (s.advance t).disturbAll upsets := by
      rw [State.scrubIfDue, hnone1]
    exact congrArg _ hstill
  · intro u s a hwf w w'
    refine ⟨rfl, ?_, TableStore.ramRead_disturb hwf u a⟩
    exact congrArg (fun ts : TableStore => { ts with ram := s.tables.ram }) (s.tables.disturb_other u)

end Sys2Proof.Machine
end

section
/-! SUPPORT. Every step keeps the links sound (R185, R186): the acceptance check guards each queue, an answer takes the
place of its command, an output frame start delivers, and nothing else touches the queues. -/

namespace Sys2Proof.Machine

/-- A link accepts a command within both limits (R185). -/
theorem Link.accepts_iff (l : Link) :
    l.accepts = true ↔ l.queue.length < 4 ∧ l.queue.length + l.responses.length < 8 := by
  rw [Link.accepts, Bool.and_eq_true, decide_eq_true_eq, decide_eq_true_eq]
  exact Iff.rfl

theorem State.linksSound_iff (s : State) :
    s.linksSound ↔ (∀ side, (s.unit side).channel.sound) ∧ s.executor ≠ .executing := by
  rw [Side.forall_iff, and_assoc]
  exact Iff.rfl

/-! ### What leaves the queues alone -/

/-- Both links hold the same commands and responses, and the executor is where it was or RESET_PENDING. -/
structure SameQueues (a s : State) : Prop where
  queue : ∀ side, (s.unit side).channel.queue = (a.unit side).channel.queue
  responses : ∀ side, (s.unit side).channel.responses = (a.unit side).channel.responses
  executor : s.executor = a.executor ∨ s.executor.isResetPending = true

namespace SameQueues
variable {a b s s' : State}

theorem trans (h : SameQueues a b) (h' : SameQueues b s) : SameQueues a s where
  queue side := (h'.queue side).trans (h.queue side)
  responses side := (h'.responses side).trans (h.responses side)
  executor := h'.executor.elim (fun e => by rw [e]; exact h.executor) .inr

theorem of_channel (hchannel : ∀ side, (s.unit side).channel = (a.unit side).channel)
    (hexecutor : s.executor = a.executor) : SameQueues a s :=
  ⟨fun side => by rw [hchannel], fun side => by rw [hchannel], .inl hexecutor⟩

theorem of_unit (hunit : ∀ side, s.unit side = a.unit side) (hexecutor : s.executor = a.executor) : SameQueues a s :=
  .of_channel (fun side => by rw [hunit]) hexecutor

theorem refl (s : State) : SameQueues s s := .of_unit (fun _ => rfl) rfl

theorem works (w : Works a s) : SameQueues a s := .of_channel w.channel w.rest.executor

theorem moves (m : Moves a s) : SameQueues a s := .works (.moves .start m)

theorem modUnit (s : State) (side : Side) {f : SideUnit → SideUnit}
    (hf : (f (s.unit side)).channel = (s.unit side).channel) : SameQueues s (s.modUnit side f) :=
  .works (.unit side f hf .start)

/-- A change of a channel other than its queues. -/
theorem modChannel (s : State) (link : Side) {f : Link → Link} (hqueue : ∀ l, (f l).queue = l.queue)
    (hresponses : ∀ l, (f l).responses = l.responses) : SameQueues s (s.modChannel link f) := by
  have hother : ∀ side, side ≠ link → (s.modChannel link f).unit side = s.unit side := fun side hside =>
    s.modUnit_unit_of_ne hside _
  refine ⟨fun side => ?_, fun side => ?_, .inl (s.modUnit_executor link _)⟩
  · by_cases hside : side = link
    · rw [hside, State.modChannel_unit_same, hqueue]
    · rw [hother side hside]
  · by_cases hside : side = link
    · rw [hside, State.modChannel_unit_same, hresponses]
    · rw [hother side hside]

theorem ite {c : Prop} [Decidable c] (h' : SameQueues a s') (h : SameQueues a s) :
    SameQueues a (if c then s' else s) := by split <;> assumption

theorem setFaults (s : State) (fm : FaultManager) : SameQueues s { s with faults := fm } :=
  .of_unit (fun side => by cases side <;> rfl) rfl

theorem setTables (s : State) (ts : TableStore) : SameQueues s { s with tables := ts } :=
  .of_unit (fun side => by cases side <;> rfl) rfl

theorem setMode (s : State) (mode : Mode) : SameQueues s { s with mode := mode } :=
  .of_unit (fun side => by cases side <;> rfl) rfl

theorem raise (s : State) (d : Descriptor) (w : List Word) : SameQueues s (s.raise d w) := .setFaults s _

theorem activate (s : State) (d : Descriptor) (w : List Word) : SameQueues s (s.activate d w) := .setFaults s _

/-! The table store -/

theorem copyWord (s : State) (k : Kind) (c : SyncCopy) : SameQueues s (s.copyWord k c) := by
  have hread := moves (Moves.readWord k (s.tables.kind k).live c.next (.start (a := s)))
  unfold State.copyWord
  dsimp only
  generalize s.readWord k (s.tables.kind k).live c.next = read at hread ⊢
  obtain ⟨d, s1⟩ := read
  exact hread.trans (.setTables _ _)

theorem syncStep (s : State) (k : Kind) : SameQueues s (s.syncStep k) := by
  unfold State.syncStep
  split
  next => exact .refl s
  next c _ => exact ite (.copyWord s k c) (.refl s)

theorem scrubIfDue (s : State) : SameQueues s s.scrubIfDue := by
  have hscrub : ∀ x : State, SameQueues x x.scrub := fun x => by
    unfold State.scrub
    split
    next => exact .refl x
    next =>
      dsimp only
      split
      next => exact .setTables x _
      next => exact trans (.setTables x _) (.moves (.readWord _ _ _ .start))
  unfold State.scrubIfDue
  split
  next => exact .refl s
  next => exact ite (trans (.setTables s _) (hscrub _)) (.refl s)

theorem switchBanks (s : State) (k : Kind) : SameQueues s (s.switchBanks k) := by
  unfold State.switchBanks
  dsimp only
  split
  next => exact trans (.setTables s _) (.setFaults _ _)
  next => exact .setTables s _

theorem resetOrigins (s : State) (ws : List (Nat × Word)) : SameQueues s (s.resetOrigins ws) := by
  have horigin : ∀ {x : State}, Works s x → ∀ v, Works s (x.modView v fun u => u.resetOrigin ws v) := fun w v =>
    w.modView v _
  exact .works (horigin (horigin (horigin (horigin .start .leftMain) .leftWide) .rightMain) .rightWide)

theorem acceptedCommit (s : State) (k : Kind) (crc : Nat) : SameQueues s (acceptedCommit k crc s).2 := by
  have hread := moves (Moves.readWords k (s.tables.kind k).live.other (List.range k.size) (.start (a := s)))
  unfold Machine.acceptedCommit
  split
  next hr => rwa [hr] at hread
  next ws s1 hr =>
    rw [hr] at hread
    split
    next => exact hread
    next =>
      split
      next => exact hread
      next =>
        have hswitch : SameQueues s (s1.switchBanks k) := hread.trans (.switchBanks s1 k)
        exact ite (hswitch.trans (.resetOrigins _ ws)) hswitch

theorem acceptedRead (s : State) (k : Kind) (shadow : Bool) (off count : Nat) :
    SameQueues s (acceptedRead k shadow off count s).2 := by
  have hread := moves (Moves.readWords k (namedBank s.tables k shadow) (List.range' off (min count (k.size - off)))
    (.start (a := s)))
  unfold Machine.acceptedRead
  split
  next hr => rwa [hr] at hread
  next hr => rwa [hr] at hread

/-! Commands -/

/-- The body of a command leaves both queues of both links. -/
theorem commandEffect {link : Side} (he : CommandEffect link s s') : SameQueues s s' := by
  cases he with
  | nothing => exact .refl s
  | clearSuperseded => exact .works (.clearSuperseded .start)
  | goRun => exact trans (.setMode s .run) (.works (.modViews (.modViews .start .left _) .right _))
  | goConfig => exact trans (.setMode s .config) (.works (.stopSide (.stopSide .start .left) .right))
  | resetPending => exact ⟨fun side => by cases side <;> rfl, fun side => by cases side <;> rfl, .inr rfl⟩
  | setTimeout ms => exact .modChannel s link (fun _ => rfl) fun _ => rfl
  | load k off data => exact .setTables s _
  | commit k crc => exact .acceptedCommit s k crc
  | read k shadow off count => exact .acceptedRead s k shadow off count
  | lock k => exact .setTables s _
  | pan v x y =>
    unfold acceptedPan
    dsimp only
    exact .works (.modView (.latch .start .view (panWords v)) v _)
  | force side f => exact .modUnit s side rfl
  | clearDrops side => exact .modUnit s side rfl
  | clearEvents m => exact trans (.moves (.latch .policy [0] .start)) (.setFaults _ _)
  | setEnables select value => exact .setFaults s _
  | removeRecords n => exact .setFaults s _
  | startRun side selection => exact .moves (.startRun side selection .start)
  | endRun side => exact .moves (.endRun side .start)
  | clearFailFlags side => exact .modUnit s side rfl

end SameQueues

theorem State.linksSound_of_sameQueues {a s : State} (h : SameQueues a s) (ha : a.linksSound) : s.linksSound := by
  rw [State.linksSound_iff] at ha ⊢
  refine ⟨fun side => ?_, fun hs => ?_⟩
  · rw [Link.sound, h.queue, h.responses]
    exact ha.1 side
  · rcases h.executor with e | e
    · exact ha.2 (e ▸ hs)
    · rw [hs] at e
      cases e

/-! ### The queues of a link -/

namespace State.linksSound
variable {s : State} (h : s.linksSound)
include h

/-- A change of a channel that keeps it sound. -/
theorem modChannel (link : Side) {f : Link → Link}
    (hf : (s.unit link).channel.sound → (f (s.unit link).channel).sound) : (s.modChannel link f).linksSound := by
  rw [State.linksSound_iff] at h ⊢
  refine ⟨fun side => ?_, by rw [State.modChannel_executor]; exact h.2⟩
  by_cases hside : side = link
  · rw [hside, State.modChannel_unit_same]
    exact hf (h.1 link)
  · rw [show (s.modChannel link f).unit side = s.unit side from s.modUnit_unit_of_ne hside _]
    exact h.1 side

/-- A command joins its queue only within both limits (R185). -/
theorem acceptCommand (link : Side) (c : Command) : (s.acceptCommand link c).linksSound := by
  unfold State.acceptCommand
  split
  next haccepts =>
    obtain ⟨hqueue, hboth⟩ := (Link.accepts_iff _).1 haccepts
    exact h.modChannel link fun _ => by
      constructor <;> simp only [List.length_append, List.length_cons, List.length_nil] <;> omega
  next =>
    exact State.linksSound_of_sameQueues (.raise _ _ _) (h.modChannel link id)

theorem deliver (link : Side) (c : Command) : (s.deliver link c).linksSound := by
  unfold State.deliver
  split
  next => exact h.acceptCommand link c
  next => exact h

/-- Up to 4 responses leave with a trailer (R189). -/
theorem takeOutputStart (side : Side) : (s.takeOutputStart side).linksSound := by
  rw [State.takeOutputStart_eq]
  generalize hs1 : State.backlightStart _ side = s1
  have hstart : s1.linksSound := State.linksSound_of_sameQueues (.works (hs1 ▸
    ((Works.afterViews .start side).modComposer side _).moves (.backlightStart side .start))) h
  have hdelivered := hstart.modChannel side
    (f := fun l => { l with responses := l.responses.drop Config.responsesPerTrailer }) fun hl => by
      obtain ⟨hqueue, hboth⟩ := hl
      exact ⟨hqueue, by dsimp only; rw [List.length_drop]; omega⟩
  unfold State.captureTrailer
  exact State.linksSound_of_sameQueues (.modUnit _ side rfl) hdelivered

/-! ### The receivers (R180 to R185) -/

theorem setReceiver (link : Side) (r : Receiver) : (s.setReceiver link r).linksSound := h.modChannel link id

theorem routePacket (link : Side) (c : Command) : (s.routePacket link c).linksSound := by
  unfold State.routePacket
  split
  next =>
    split
    next => exact State.linksSound_of_sameQueues (.moves (.telemetry link _ _ .start)) h
    next => exact State.linksSound_of_sameQueues (.raise s _ _) h
  next => exact h.acceptCommand link c

theorem takeByte (link : Side) (b : Byte) : (s.takeByte link b).linksSound := by
  unfold State.takeByte
  split
  next =>
    unfold State.takeLen
    split
    next => exact h.setReceiver link _
    next => exact State.linksSound_of_sameQueues (.raise s _ _) h
  next =>
    unfold State.collect
    split
    next => exact h.setReceiver link _
    next =>
      unfold State.checkPacket
      split
      next => exact (h.setReceiver link _).routePacket link _
      next => exact State.linksSound_of_sameQueues (.raise _ _ _) (h.setReceiver link _)

theorem packetTimedOut (link : Side) : (s.packetTimedOut link).linksSound := by
  unfold State.packetTimedOut
  split
  next => exact h
  next =>
    split
    next => exact State.linksSound_of_sameQueues (.raise _ _ _) (h.setReceiver link _)
    next => exact h

end State.linksSound

/-! ### The executor (R186, R187) -/

/-- A response takes the place of the command that the executor took (R185, R187). -/
theorem State.respond_linksSound {s s' : State} (h : s.linksSound) {link : Side} {c : Command} (hready : s.ready link c)
    (hbody : SameQueues (s.takeCommand link) s') (r : Reply) : (s'.respond link c r).linksSound := by
  obtain ⟨rest, hqueue⟩ := ready_queue hready
  rw [State.linksSound_iff] at h ⊢
  obtain ⟨hlinks, -⟩ := h
  have htaken : (s.takeCommand link).unit link =
      { s.unit link with channel := { (s.unit link).channel with queue := rest } } := by
    cases link <;> simp_all [State.takeCommand, State.modChannel, State.modUnit, State.unit]
  have hother : ∀ side, side ≠ link → (s.takeCommand link).unit side = s.unit side := fun side hside => by
    cases side <;> cases link <;> first | rfl | exact absurd rfl hside
  have hunit : ∀ side, (s'.respond link c r).unit side = (s'.modChannel link fun l =>
      { l with responses := l.responses ++ [⟨c.tag, c.kind + 0x80, r.status.code, r.param⟩] }).unit side := fun side => by
    cases side <;> rfl
  refine ⟨fun side => ?_, ?_⟩
  · rw [hunit]
    have hlink := hlinks side
    by_cases hside : side = link
    · subst hside
      rw [Link.sound, hqueue, List.length_cons] at hlink
      rw [State.modChannel_unit_same, Link.sound, hbody.queue, hbody.responses, htaken, List.length_append]
      dsimp only [List.length_cons, List.length_nil]
      omega
    · rw [show (s'.modChannel link _).unit side = s'.unit side from s'.modUnit_unit_of_ne hside _, Link.sound,
        hbody.queue, hbody.responses, hother side hside]
      exact hlink
  · unfold State.respond
    dsimp only
    split
    next hpending => exact fun e => by rw [e] at hpending; cases hpending
    next => exact fun e => by cases e

theorem State.linksSound.runCommand {s : State} (h : s.linksSound) (link : Side) (c : Command)
    {body : State → Reply × State} (hbody : ∀ x : State, CommandEffect link x (body x).2) :
    (s.runCommand link c body).linksSound := by
  have hdeliver := h.deliver link c
  unfold State.runCommand
  dsimp only
  split
  next htakes =>
    rw [State.takes, Bool.and_eq_true, decide_eq_true_eq, decide_eq_true_eq] at htakes
    exact State.respond_linksSound hdeliver htakes (.commandEffect (hbody _)) _
  next => exact hdeliver

/-! ### The soft reset (R190) -/

theorem SameQueues.takeStanding (s : State) : SameQueues s s.takeStanding := by
  have hcamera : ∀ (x : State) (side : Side), SameQueues x (x.standCamera side) := fun x side =>
    ite (.activate x _ _) (.refl x)
  have hdisplay : ∀ (x : State) (side : Side), SameQueues x (x.standDisplay side) := fun x side => by
    have hlost : SameQueues x
        (if (x.unit side).light.known then x else x.activate (.disp side .telemetryLost) []) :=
      ite (.refl x) (.activate x _ _)
    exact ite hlost (hlost.trans (.activate _ _ _))
  have htables : ∀ x : State, SameQueues x x.standTables := fun x => by
    unfold State.standTables
    split
    next => exact .refl x
    next => exact .activate x _ _
  exact (((((SameQueues.raise s _ _).trans (hcamera _ .left)).trans (hcamera _ .right)).trans (hdisplay _ .left)).trans
    (hdisplay _ .right)).trans (htables _)

/-- After a soft reset every queue is empty, and the executor is IDLE (R186, R190). -/
theorem State.performSoftReset_linksSound (s : State) : s.performSoftReset.linksSound := by
  unfold State.performSoftReset
  dsimp only
  refine State.linksSound_of_sameQueues (.takeStanding _) ⟨?_, ?_, ?_⟩
  · exact ⟨Nat.zero_le 4, Nat.zero_le 8⟩
  · exact ⟨Nat.zero_le 4, Nat.zero_le 8⟩
  · exact fun e => by cases e

/-! ### Every step -/

theorem exec_linksSound {s : State} (hs : s.linksSound) (i : Instr) : ∃ s', exec i s = .next s' ∧ s'.linksSound := by
  have h : ∀ t, (s.advance t).linksSound := fun _ => hs
  have same : ∀ {t s'}, SameQueues (s.advance t) s' → s'.linksSound := fun hsame =>
    State.linksSound_of_sameQueues hsame (h _)
  have works : ∀ {c : Prop} [Decidable c] {t s'}, Works (s.advance t) s' →
      (if c then s' else s.advance t).linksSound := fun w => same (.works (.ite .start w))
  have command : ∀ t link kind tag param {body : State → Reply × State},
      (∀ x : State, CommandEffect link x (body x).2) →
        ∃ s', s.command t link kind tag param body = .next s' ∧ s'.linksSound :=
    fun t link _ _ _ _ hb => ⟨_, rfl, (h t).runCommand link _ hb⟩
  cases i with
  | powerOn => exact ⟨_, rfl, ⟨Nat.zero_le 4, Nat.zero_le 8⟩, ⟨Nat.zero_le 4, Nat.zero_le 8⟩, fun e => by cases e⟩
  | tableClearEnd t => exact ⟨_, rfl, same (.ite (.of_unit (fun side => by cases side <;> rfl) rfl) (.refl _))⟩
  | softResetInstant t =>
    refine ⟨_, rfl, ?_⟩
    split
    next =>
      split
      next => exact State.performSoftReset_linksSound _
      next => exact h t
    next => exact h t
  | linkLost t side => exact ⟨_, rfl, works (.loseLock .start side)⟩
  | linkLock t side => exact ⟨_, rfl, works (.gainLock .start side)⟩
  | frameStart t side => exact ⟨_, rfl, works (.takeFrameStart .start side)⟩
  | embeddedLine t side good codes => exact ⟨_, rfl, works (.lineArrives .start side 0 good codes)⟩
  | activeLine t side index good codes => exact ⟨_, rfl, works (.lineArrives .start side index good codes)⟩
  | frameEnd t side => exact ⟨_, rfl, works (.takeFrameEnd .start side)⟩
  | referencePassEnd t side =>
    refine ⟨_, rfl, ?_⟩
    split
    next =>
      split
      next => exact works (.moves .start (.referenceDone side _ .start))
      next => exact h t
    next => exact h t
  | silentTimerExpiry t side => exact ⟨_, rfl, works ((Works.start.modIngest side _).activate _ _ (by simp))⟩
  | frameStartStampExpiry t side =>
    have hstamp : Works (s.advance t)
        ((s.advance t).modIngest side fun i => { i with prevStart := expireStamp (s.advance t).now i.prevStart }) :=
      .modIngest .start side _
    refine ⟨_, rfl, ?_⟩
    cases side
    · exact same (.works (hstamp.moves (.latest _ .start)))
    · exact same (.works hstamp)
  | completionStampExpiry t side => exact ⟨_, rfl, same (.works (.modComposer .start side _))⟩
  | ddrWriteFail t v => exact ⟨_, rfl, same (.works (.writeFails .start v))⟩
  | regionReadDone t v ok => exact ⟨_, rfl, same (.works (.regionRead .start v ok))⟩
  | outputFrameStart t side =>
    refine ⟨_, rfl, ?_⟩
    split
    next => exact (h t).takeOutputStart side
    next => exact h t
  | returnLaneByte t link b =>
    refine ⟨_, rfl, ?_⟩
    split
    next => exact h t
    next => exact (h t).takeByte link b
  | packetTimeout t link => exact ⟨_, rfl, (h t).packetTimedOut link⟩
  | ambientTimerExpiry t side => exact ⟨_, rfl, works (.moves .start (.ambientLost side .start))⟩
  | pulseExpiry t d => exact ⟨_, rfl, same (.setFaults _ _)⟩
  | holdOffExpiry t => exact ⟨_, rfl, same (.ite (.setFaults _ _) (.refl _))⟩
  | selftestStepTimeout t side => exact ⟨_, rfl, works (.moves .start (.stepTimeout side .start))⟩
  | storeWriteDone t side ok => exact ⟨_, rfl, same (.moves (.writeDone side ok .start))⟩
  | storeReadDone t side data => exact ⟨_, rfl, same (.moves (.readDone side data .start))⟩
  | syncWordCopy t k => exact ⟨_, rfl, same (.syncStep _ k)⟩
  | scrubVisit t upsets => exact ⟨_, rfl, same (.trans (.setTables _ _) (.scrubIfDue _))⟩
  | echo t link tag param => exact command _ _ _ _ _ (echoBody_effect param)
  | getStatus t link tag param => exact command _ _ _ _ _ fun x => withNone_effect param x .clearSuperseded
  | enterRun t link tag param => exact command _ _ _ _ _ (enterRunBody_effect param)
  | enterConfig t link tag param => exact command _ _ _ _ _ (enterConfigBody_effect param)
  | softReset t link tag param => exact command _ _ _ _ _ fun x => withNone_effect param x .resetPending
  | setChannel t link tag param => exact command _ _ _ _ _ (setChannelBody_effect param)
  | loadTable t link tag param => exact command _ _ _ _ _ (loadTableBody_effect param)
  | commitTable t link tag param => exact command _ _ _ _ _ (commitTableBody_effect param)
  | readTable t link tag param => exact command _ _ _ _ _ (readTableBody_effect param)
  | tableStatus t link tag param => exact command _ _ _ _ _ fun x => withNone_effect param x .nothing
  | lockTable t link tag param => exact command _ _ _ _ _ (lockTableBody_effect param)
  | setPan t link tag param => exact command _ _ _ _ _ (setPanBody_effect param)
  | forceLight t link tag param => exact command _ _ _ _ _ (forceLightBody_effect param)
  | getGlare t link tag param => exact command _ _ _ _ _ fun x => withSide_effect param x .clearDrops
  | getTiming t link tag param => exact command _ _ _ _ _ fun x => withNone_effect param x .nothing
  | getEvents t link tag param => exact command _ _ _ _ _ fun x => withNone_effect param x .nothing
  | clearEvents t link tag param => exact command _ _ _ _ _ (clearEventsBody_effect param)
  | setEventEnable t link tag param => exact command _ _ _ _ _ (setEventEnableBody_effect param)
  | readLog t link tag param => exact command _ _ _ _ _ (readLogBody_effect param)
  | startSelftest t link tag param => exact command _ _ _ _ _ (startSelftestBody_effect param)
  | abortSelftest t link tag param => exact command _ _ _ _ _ fun x => withSide_effect param x .endRun
  | getSelftest t link tag param => exact command _ _ _ _ _ fun x => withSide_effect param x fun _ => .nothing
  | clearSelftest t link tag param => exact command _ _ _ _ _ fun x => withSide_effect param x .clearFailFlags
  | badKindCommand t link tag kind param =>
    simp only [exec, execBadKindCommand]
    split
    next => exact ⟨_, rfl, h t⟩
    next => exact command _ _ _ _ _ fun _ => .nothing

/-- Settles O58: a step leaves the queues, or accepts, answers or delivers within the limits. -/
theorem everyStepKeepsTheLinksSound : Obligations.EveryStepKeepsTheLinksSound := by
  unfold Obligations.EveryStepKeepsTheLinksSound
  intro s s' h hstep
  unfold step at hstep
  split at hstep
  next =>
    cases hstep
    exact h
  next i rest _ =>
    obtain ⟨s1, hexec, hsound⟩ := exec_linksSound (s := { s with pending := rest }) h i
    rw [hexec] at hstep
    cases hstep
    exact hsound

end Sys2Proof.Machine
end

section
/-! SUPPORT. Command rows (R186, R187, R195): the executor's taking of a command, the body of each row, and the
parameters that each body refuses. -/

namespace Sys2Proof.Machine

/-! ### Fields of a PARAM (R195, R211) -/

section
variable {b : Byte}

theorem sideOf_le {side : Side} (h : sideOf b = some side) : b.toNat ≤ 1 := by
  unfold sideOf at h
  split at h
  next hb => omega
  next hb => omega
  next => cases h

theorem forceOf_le {f : Force} (h : forceOf b = some f) : b.toNat ≤ 2 := by
  unfold forceOf at h
  split at h
  next hb => omega
  next hb => omega
  next hb => omega
  next => cases h

theorem shadowOf_le {shadow : Bool} (h : shadowOf b = some shadow) : b.toNat ≤ 1 := by
  unfold shadowOf at h
  split at h
  next hb => omega
  next hb => omega
  next => cases h

theorem viewOf_le {v : View} (h : viewOf b = some v) : b.toNat ≤ 3 := by
  have hlt : b.toNat < allViews.length := (List.getElem?_eq_some_iff.1 h).1
  exact Nat.le_of_lt_succ hlt

/-- A kind code is at most 7, and names a bank of the kind's size (R156). -/
theorem kindOf_le {k : Kind} (h : kindOf b = some k) : b.toNat ≤ 7 ∧ sizeOfCode b.toNat = k.size := by
  obtain ⟨hlt, hk⟩ := List.getElem?_eq_some_iff.1 h
  have hle : b.toNat < 8 := hlt
  generalize b.toNat = n at *
  refine ⟨by omega, ?_⟩
  rw [← hk]
  interval_cases n <;> rfl

theorem selectionOf_le {selection : PerStep Bool} (h : selectionOf b = some selection) : 1 ≤ b.toNat ∧ b.toNat ≤ 31 := by
  unfold selectionOf at h
  split at h
  next => cases h
  next hb => omega

end

theorem numberOf_lt (bs : List Byte) : numberOf bs < 256 ^ bs.length := by
  induction bs with
  | nil => exact Nat.one_pos
  | cons b rest ih =>
    have hb := b.isLt
    rw [numberOf, List.length_cons, Nat.pow_succ]
    omega

theorem numberOf_append (as bs : List Byte) : numberOf (as ++ bs) = numberOf as + 256 ^ as.length * numberOf bs := by
  induction as with
  | nil => simp [numberOf]
  | cons a rest ih => rw [List.cons_append, numberOf, ih, numberOf, List.length_cons, Nat.pow_succ]; ring

theorem numberOf_eq_zero {bs : List Byte} (h : (bs.any fun b => b != 0) = false) : numberOf bs = 0 := by
  induction bs with
  | nil => rfl
  | cons b rest ih =>
    rw [List.any_cons, Bool.or_eq_false_iff, bne_eq_false_iff_eq] at h
    rw [numberOf, h.1, ih h.2]
    rfl

/-- A descriptor map of 7 bytes names no descriptor above 50; it is empty when every byte is 0, and RESET_SEEN is bit 2
of its last byte (R211). -/
theorem mapOf_bytes {bs : List Byte} {m : BitVec 51} (hlength : bs.length = 7) (h : mapOf bs = some m) :
    (bs.getD 6 0).toNat < 8 ∧ ((bs.any fun b => b != 0) = false → m = 0) ∧
      inSet m (.core .resetSeen) = (bs.getD 6 0).toNat.testBit 2 := by
  unfold mapOf at h
  split at h
  next hlt =>
    cases h
    have hsplit : numberOf bs = numberOf (bs.take 6) + 2 ^ 48 * (bs.getD 6 0).toNat := by
      have hlast : bs.take 6 ++ [bs.getD 6 0] = bs := by
        rw [List.getD_eq_getElem _ _ (by omega), List.take_append_getElem, List.take_of_length_le (by omega)]
      have hsum := numberOf_append (bs.take 6) [bs.getD 6 0]
      rw [hlast, List.length_take, hlength] at hsum
      exact hsum
    have hlow : numberOf (bs.take 6) < 2 ^ 48 := by
      have hlow := numberOf_lt (bs.take 6)
      rwa [List.length_take, hlength] at hlow
    refine ⟨by omega, fun hany => by rw [numberOf_eq_zero hany]; rfl, ?_⟩
    have hindex : (Descriptor.core .resetSeen).index.val = 50 := rfl
    rw [hsplit, inSet, hindex, BitVec.getLsbD_ofNat, Nat.testBit_eq_decide_div_mod_eq, Nat.testBit_eq_decide_div_mod_eq]
    simp only [show (50 < 51) from by decide, decide_true, Bool.true_and, decide_eq_decide]
    omega
  next => cases h

/-! ### What each body refuses (R187, R195) -/

section
variable {tag : Byte} {param : List Byte} {s : State}

/-- A refusal that is impossible: the parameters are allowed. -/
theorem refused_of_allowed {c : Command} {x : Reply × State} (h : paramAllowed c = false) (hallowed : paramAllowed c = true) :
    x = (refuse .badParam, s) := by
  rw [h] at hallowed
  cases hallowed

theorem withNone_refused {f : Reply × State} (h : (param.length == 0) = false) :
    withNone param s f = (refuse .badParam, s) := by
  unfold withNone
  split
  next => cases h
  next => rfl

theorem withSide_refused {f : Side → Reply × State}
    (h : decide (param.length = 1 ∧ (param.getD 0 0).toNat ≤ 1) = false) :
    withSide param s f = (refuse .badParam, s) := by
  unfold withSide
  split
  next b =>
    split
    next hside => exact absurd ⟨rfl, sideOf_le hside⟩ (of_decide_eq_false h)
    next => rfl
  next => rfl

theorem echoBody_refused (h : paramAllowed ⟨tag, 0x01, param⟩ = false) : echoBody param s = (refuse .badParam, s) :=
  if_neg (of_decide_eq_false h)

theorem setChannelBody_refused {link : Side} (h : paramAllowed ⟨tag, 0x06, param⟩ = false) :
    setChannelBody link param s = (refuse .badParam, s) := by
  unfold setChannelBody
  split
  next => cases h
  next => rfl

theorem loadTableBody_refused (h : paramAllowed ⟨tag, 0x10, param⟩ = false) :
    loadTableBody param s = (refuse .badParam, s) := by
  unfold loadTableBody
  split
  next kb ob data =>
    split
    next => rfl
    next k hk =>
      split
      next => rfl
      next hfields =>
        obtain ⟨hle, hsize⟩ := kindOf_le hk
        refine refused_of_allowed h (decide_eq_true ?_)
        simp only [List.length_cons, List.getD_cons_succ, List.getD_cons_zero, hsize]
        omega
  next => rfl

theorem commitTableBody_refused (h : paramAllowed ⟨tag, 0x11, param⟩ = false) :
    commitTableBody param s = (refuse .badParam, s) := by
  unfold commitTableBody
  split
  next kb c0 c1 =>
    split
    next => rfl
    next k hk => exact refused_of_allowed h (decide_eq_true ⟨rfl, (kindOf_le hk).1⟩)
  next => rfl

theorem readTableBody_refused (h : paramAllowed ⟨tag, 0x12, param⟩ = false) :
    readTableBody param s = (refuse .badParam, s) := by
  unfold readTableBody
  split
  next kb bb ob nb =>
    split
    next k shadow hk hshadow =>
      split
      next => rfl
      next hfields =>
        obtain ⟨hle, hsize⟩ := kindOf_le hk
        have hbank := shadowOf_le hshadow
        refine refused_of_allowed h (decide_eq_true ⟨rfl, ?_⟩)
        simp only [List.getD_cons_succ, List.getD_cons_zero, hsize]
        omega
    next => rfl
  next => rfl

theorem lockTableBody_refused (h : paramAllowed ⟨tag, 0x14, param⟩ = false) :
    lockTableBody param s = (refuse .badParam, s) := by
  unfold lockTableBody
  split
  next kb =>
    split
    next => rfl
    next k hk => exact refused_of_allowed h (decide_eq_true ⟨rfl, (kindOf_le hk).1⟩)
  next => rfl

theorem setPanBody_refused (h : paramAllowed ⟨tag, 0x20, param⟩ = false) :
    setPanBody param s = (refuse .badParam, s) := by
  unfold setPanBody
  split
  next =>
    split
    next => rfl
    next hv => exact refused_of_allowed h (decide_eq_true ⟨rfl, viewOf_le hv⟩)
  next => rfl

theorem forceLightBody_refused (h : paramAllowed ⟨tag, 0x21, param⟩ = false) :
    forceLightBody param s = (refuse .badParam, s) := by
  unfold forceLightBody
  split
  next =>
    split
    next hside hforce => exact refused_of_allowed h (decide_eq_true ⟨rfl, sideOf_le hside, forceOf_le hforce⟩)
    next => rfl
  next => rfl

theorem clearEventsBody_refused (h : paramAllowed ⟨tag, 0x31, param⟩ = false) :
    clearEventsBody param s = (refuse .badParam, s) := by
  unfold clearEventsBody
  split
  next => rfl
  next hlength =>
    split
    next => rfl
    next m hm =>
      split
      next => rfl
      next hnonempty =>
        obtain ⟨hlast, hempty, -⟩ := mapOf_bytes (not_not.1 hlength) hm
        refine refused_of_allowed h (decide_eq_true ⟨not_not.1 hlength, hlast, ?_⟩)
        exact Bool.eq_true_of_not_eq_false fun hany => hnonempty (hempty hany)

theorem setEventEnableBody_refused (h : paramAllowed ⟨tag, 0x32, param⟩ = false) :
    setEventEnableBody param s = (refuse .badParam, s) := by
  unfold setEventEnableBody
  split
  next => rfl
  next hlength =>
    split
    next select value hselect hvalue =>
      split
      next => rfl
      next hfields =>
        obtain ⟨hnonempty, hkeeps⟩ := not_or.1 hfields
        have hn : param.length = 14 := not_not.1 hlength
        obtain ⟨hlast, hempty, hseen⟩ := mapOf_bytes (by rw [List.length_take, hn]; rfl) hselect
        obtain ⟨hlast', -, hseen'⟩ := mapOf_bytes (by rw [List.length_drop, hn]) hvalue
        have htake : (param.take 7).getD 6 0 = param.getD 6 0 := by
          simp [List.getD_eq_getElem?_getD]
        have hdrop : (param.drop 7).getD 6 0 = param.getD 13 0 := by simp [List.getD_eq_getElem?_getD]
        rw [htake] at hlast hseen
        rw [hdrop] at hlast' hseen'
        refine refused_of_allowed h ?_
        have hallowed : paramAllowed ⟨tag, 0x32, param⟩ =
          (decide (param.length = 14 ∧ (param.getD 6 0).toNat < 8 ∧ (param.getD 13 0).toNat < 8 ∧
            ((param.take 7).any fun b => b != 0) = true) &&
          (!(param.getD 6 0).toNat.testBit 2 || (param.getD 13 0).toNat.testBit 2)) := rfl
        rw [hallowed, Bool.and_eq_true, ← hseen, ← hseen']
        refine ⟨decide_eq_true ⟨hn, hlast, hlast', ?_⟩, ?_⟩
        · exact Bool.eq_true_of_not_eq_false fun hany => hnonempty (hempty hany)
        · simpa [clearsResetSeen, imp_iff_not_or] using hkeeps
    next => rfl

theorem readLogBody_refused (h : paramAllowed ⟨tag, 0x33, param⟩ = false) :
    readLogBody param s = (refuse .badParam, s) := by
  unfold readLogBody
  split
  next nb =>
    split
    next => rfl
    next hcount => exact refused_of_allowed h (decide_eq_true ⟨rfl, by simp only [List.getD_cons_zero]; omega⟩)
  next => rfl

theorem startSelftestBody_refused (h : paramAllowed ⟨tag, 0x40, param⟩ = false) :
    startSelftestBody param s = (refuse .badParam, s) := by
  unfold startSelftestBody
  split
  next =>
    split
    next hside hselection => exact refused_of_allowed h (decide_eq_true ⟨rfl, sideOf_le hside, selectionOf_le hselection⟩)
    next => rfl
  next => rfl

end

/-! ### The body of a command row -/

/-- A command row runs its body, which refuses a KIND that is no command code and parameters that are not allowed
(R187). -/
structure RowBody (i : Instr) (t : Time) (link : Side) (c : Command) (body : State → Reply × State) : Prop where
  runs : ∀ s, exec i s = .next ((s.advance t).runCommand link c body)
  badKind : c.kind ∉ commandCodes → ∀ s, body s = (refuse .badKind, s)
  badParam : c.kind ∈ commandCodes → paramAllowed c = false → ∀ s, body s = (refuse .badParam, s)

/-- The row of a command code. -/
theorem RowBody.of_code {i : Instr} {t : Time} {link : Side} {c : Command} {body : State → Reply × State}
    (hcode : commandCodes.contains c.kind = true) (hexec : ∀ s, exec i s = .next ((s.advance t).runCommand link c body))
    (hbody : paramAllowed c = false → ∀ s, body s = (refuse .badParam, s)) : ∃ body, RowBody i t link c body :=
  ⟨body, hexec, fun h => absurd (List.contains_iff_mem.1 hcode) h, fun _ => hbody⟩

theorem exists_rowBody {i : Instr} {t : Time} {link : Side} {c : Command} (h : commandOf i = some (t, link, c)) :
    ∃ body, RowBody i t link c body := by
  cases i with
  | powerOn | tableClearEnd | softResetInstant | linkLost | linkLock | frameStart | embeddedLine | activeLine | frameEnd
  | referencePassEnd | silentTimerExpiry | frameStartStampExpiry | completionStampExpiry | ddrWriteFail | regionReadDone
  | outputFrameStart | returnLaneByte | packetTimeout | ambientTimerExpiry | pulseExpiry | holdOffExpiry
  | selftestStepTimeout | storeWriteDone | storeReadDone | syncWordCopy | scrubVisit => cases h
  | echo => cases h; exact RowBody.of_code rfl (fun _ => rfl) fun hp _ => echoBody_refused hp
  | getStatus => cases h; exact RowBody.of_code rfl (fun _ => rfl) fun hp _ => withNone_refused hp
  | enterRun => cases h; exact RowBody.of_code rfl (fun _ => rfl) fun hp _ => withNone_refused hp
  | enterConfig => cases h; exact RowBody.of_code rfl (fun _ => rfl) fun hp _ => withNone_refused hp
  | softReset => cases h; exact RowBody.of_code rfl (fun _ => rfl) fun hp _ => withNone_refused hp
  | setChannel => cases h; exact RowBody.of_code rfl (fun _ => rfl) fun hp _ => setChannelBody_refused hp
  | loadTable => cases h; exact RowBody.of_code rfl (fun _ => rfl) fun hp _ => loadTableBody_refused hp
  | commitTable => cases h; exact RowBody.of_code rfl (fun _ => rfl) fun hp _ => commitTableBody_refused hp
  | readTable => cases h; exact RowBody.of_code rfl (fun _ => rfl) fun hp _ => readTableBody_refused hp
  | tableStatus => cases h; exact RowBody.of_code rfl (fun _ => rfl) fun hp _ => withNone_refused hp
  | lockTable => cases h; exact RowBody.of_code rfl (fun _ => rfl) fun hp _ => lockTableBody_refused hp
  | setPan => cases h; exact RowBody.of_code rfl (fun _ => rfl) fun hp _ => setPanBody_refused hp
  | forceLight => cases h; exact RowBody.of_code rfl (fun _ => rfl) fun hp _ => forceLightBody_refused hp
  | getGlare => cases h; exact RowBody.of_code rfl (fun _ => rfl) fun hp _ => withSide_refused hp
  | getTiming => cases h; exact RowBody.of_code rfl (fun _ => rfl) fun hp _ => withNone_refused hp
  | getEvents => cases h; exact RowBody.of_code rfl (fun _ => rfl) fun hp _ => withNone_refused hp
  | clearEvents => cases h; exact RowBody.of_code rfl (fun _ => rfl) fun hp _ => clearEventsBody_refused hp
  | setEventEnable => cases h; exact RowBody.of_code rfl (fun _ => rfl) fun hp _ => setEventEnableBody_refused hp
  | readLog => cases h; exact RowBody.of_code rfl (fun _ => rfl) fun hp _ => readLogBody_refused hp
  | startSelftest => cases h; exact RowBody.of_code rfl (fun _ => rfl) fun hp _ => startSelftestBody_refused hp
  | abortSelftest => cases h; exact RowBody.of_code rfl (fun _ => rfl) fun hp _ => withSide_refused hp
  | getSelftest => cases h; exact RowBody.of_code rfl (fun _ => rfl) fun hp _ => withSide_refused hp
  | clearSelftest => cases h; exact RowBody.of_code rfl (fun _ => rfl) fun hp _ => withSide_refused hp
  | badKindCommand t' link' tag kind param =>
    have hrow : commandOf (.badKindCommand t' link' tag kind param) =
        if commandCodes.contains kind || kind == telemetryKind then none else some (t', link', ⟨tag, kind, param⟩) := rfl
    rw [hrow] at h
    split at h
    next => cases h
    next hkind =>
      cases h
      have hcode : kind ∉ commandCodes := fun hmem =>
        hkind (by rw [List.contains_iff_mem.2 hmem]; rfl)
      exact ⟨fun s1 => (refuse .badKind, s1), fun s => if_neg hkind, fun _ _ => rfl, fun h => absurd h hcode⟩

/-- Settles O8: the body of the row refuses, and a refusal is answered and changes nothing else. -/
theorem badKindsAndBadParametersAreRefused : Obligations.BadKindsAndBadParametersAreRefused := by
  unfold Obligations.BadKindsAndBadParametersAreRefused
  intro i t link c s hrow hready
  obtain ⟨body, hbody⟩ := exists_rowBody hrow
  have hrefused : ∀ st, (∀ x, body x = (refuse st, x)) → exec i s = .next ((s.advance t).answered link c st []) :=
    fun st hst => by
      rw [hbody.runs, runCommand_ready (s := s.advance t) hready, hst]
      exact congrArg _ (respond_take _ link c st [])
  exact ⟨fun hkind => hrefused _ (hbody.badKind hkind), fun hkind hp => hrefused _ (hbody.badParam hkind hp)⟩

/-! ### The taking of commands (R186, log 3) -/

/-- The executor selects the oldest command of a link whose partner holds none or was served last (R186). -/
theorem State.selected_eq_some (s : State) (link : Side) (c : Command) :
    s.selected = some (link, c) ↔
      (s.unit link).channel.queue.head? = some c ∧
        ((s.unit link.other).channel.queue = [] ∨ s.lastServed = link.other) := by
  have hserved : s.lastServed = .left ↔ s.lastServed ≠ .right := by cases s.lastServed <;> decide
  unfold State.selected
  cases link with
  | left =>
    dsimp only [State.unit, Side.other]
    split
    next hl hr => simp [hl]
    next hl hr => simp [hl, hr]
    next hl hr => simp [hl]
    next hl hr => rw [hl, hr]; by_cases h : s.lastServed = .right <;> simp [h]
  | right =>
    dsimp only [State.unit, Side.other]
    split
    next hl hr => simp [hr]
    next hl hr => simp [hr]
    next hl hr => simp [hl, hr]
    next hl hr => rw [hl, hr, hserved]; by_cases h : s.lastServed = .right <;> simp [h]

/-- A row of a link that holds commands brings none with it (log 3). -/
theorem State.deliver_of_queue {s : State} {link : Side} (h : (s.unit link).channel.queue ≠ []) (c : Command) :
    s.deliver link c = s := if_neg fun hfree => h hfree.1

/-- A row of a link with an empty queue brings its command (R185, log 3). -/
theorem State.deliver_empty {s : State} {link : Side} {c : Command} (hqueue : (s.unit link).channel.queue = [])
    (hclearing : s.clearing = false) (hparam : c.param.length ≤ 60)
    (hresponses : (s.unit link).channel.responses.length < 8) :
    s.deliver link c = s.modChannel link fun l => { l with queue := [c] } := by
  have haccepts : (s.unit link).channel.accepts = true := by
    rw [Link.accepts_iff, hqueue]
    exact ⟨by decide, by rw [List.length_nil, Nat.zero_add]; exact hresponses⟩
  rw [State.deliver, if_pos ⟨hqueue, hclearing, decide_eq_true hparam⟩, State.acceptCommand, if_pos haccepts]
  cases link <;> simp only [State.modChannel, State.modUnit, State.unit] at hqueue ⊢ <;> rw [hqueue] <;> rfl

/-- Settles O7: what the executor selects, and the row that it does not take or that brings its own packet. -/
theorem theExecutorTakesCommandsInTurn : Obligations.TheExecutorTakesCommandsInTurn := by
  unfold Obligations.TheExecutorTakesCommandsInTurn
  refine ⟨fun s link c hidle => ?_, fun i t link c s hrow => ?_⟩
  · rw [State.ready, State.selected_eq_some]
    exact and_iff_right hidle
  obtain ⟨body, hbody⟩ := exists_rowBody hrow
  refine ⟨fun hqueue hready => ?_, fun hqueue hclearing hparam hresponses => ?_⟩
  · have hnot : (s.advance t).takes link c = false := by
      rw [State.takes, Bool.and_eq_false_iff, decide_eq_false_iff_not, decide_eq_false_iff_not]
      exact not_and_or.1 hready
    rw [hbody.runs, State.runCommand, State.deliver_of_queue (by rwa [State.advance_unit])]
    dsimp only
    rw [hnot]
    rfl
  · have hadvance : (s.modChannel link fun l => { l with queue := [c] }).advance t =
        (s.advance t).modChannel link fun l => { l with queue := [c] } := by cases link <;> rfl
    have hdeliver := State.deliver_empty (s := s.advance t) (by rwa [State.advance_unit]) hclearing hparam
      (by rwa [State.advance_unit])
    have hbrought : (((s.advance t).modChannel link fun l => { l with queue := [c] }).unit link).channel.queue ≠ [] := by
      rw [State.modChannel_unit_same]
      exact List.cons_ne_nil c []
    rw [hbody.runs, hbody.runs, hadvance, State.runCommand, State.runCommand, hdeliver,
      State.deliver_of_queue hbrought]

end Sys2Proof.Machine
end

section
/-! SUPPORT. The receivers (R180 to R183, R185): one lemma for each thing that a byte or the packet timer does. -/

namespace Sys2Proof.Machine

section
variable {s : State} {link : Side} {b : Byte}

/-! ### Bytes (R180, R181) -/

theorem State.takeByte_len (hreceiver : (s.unit link).channel.receiver = .waitLen) (hlow : 4 ≤ b.toNat)
    (hhigh : b.toNat ≤ 64) :
    s.takeByte link b =
      s.setReceiver link (.collecting b.toNat []
        (if (s.unit link).channel.timeoutMs = 0 then none
        else some (s.clock + (s.unit link).channel.timeoutMs * 1000))) := by
  simp only [State.takeByte, hreceiver, State.takeLen, if_pos (And.intro hlow hhigh)]

theorem State.takeByte_badLen (hreceiver : (s.unit link).channel.receiver = .waitLen)
    (hlen : b.toNat < 4 ∨ 64 < b.toNat) : s.takeByte link b = s.raise (.disp link .returnFraming) [1] := by
  have hbad : ¬ (4 ≤ b.toNat ∧ b.toNat ≤ 64) := by omega
  simp only [State.takeByte, hreceiver, State.takeLen, if_neg hbad]
  rfl

theorem State.takeByte_collect {len : Nat} {buffer : List Byte} {due : Option Nat}
    (hreceiver : (s.unit link).channel.receiver = .collecting len buffer due) (hmore : buffer.length + 1 < len) :
    s.takeByte link b = s.setReceiver link (.collecting len (buffer ++ [b]) due) := by
  have hshort : (buffer ++ [b]).length < len := by rwa [List.length_append]
  simp only [State.takeByte, hreceiver, State.collect, if_pos hshort]

/-- The last byte of a packet whose CRC differs ends its reception with RETURN_CRC (R181, R183). -/
theorem State.takeByte_badCrc {tag kind lo : Byte} {param : List Byte} {due : Option Nat}
    (hreceiver : (s.unit link).channel.receiver = .collecting (4 + param.length) (tag :: kind :: param ++ [lo]) due)
    (hcrc : crc16 (BitVec.ofNat 8 (4 + param.length) :: tag :: kind :: param) ≠ b ++ lo) :
    s.takeByte link b = (s.setReceiver link .waitLen).raise (.disp link .returnCrc) [] := by
  have hfull : ¬ (tag :: kind :: param ++ [lo] ++ [b]).length < 4 + param.length := by
    simp only [List.length_append, List.length_cons, List.length_nil]
    omega
  simp only [State.takeByte, hreceiver, State.collect, if_neg hfull, State.checkPacket,
    if_neg fun hok => hcrc (packetOk_iff.1 hok)]

/-! ### The packet timer (R182) -/

theorem timeUp_some (n clock : Nat) : timeUp (some n) clock = true ↔ n ≤ clock := decide_eq_true_iff

theorem State.packetTimedOut_waitLen (hreceiver : (s.unit link).channel.receiver = .waitLen) :
    s.packetTimedOut link = s := by simp only [State.packetTimedOut, hreceiver]

theorem State.packetTimedOut_collecting {len : Nat} {buffer : List Byte} {due : Option Nat}
    (hreceiver : (s.unit link).channel.receiver = .collecting len buffer due) :
    s.packetTimedOut link =
      if timeUp due s.clock then (s.setReceiver link .waitLen).raise (.disp link .returnFraming) [2] else s := by
  simp only [State.packetTimedOut, hreceiver]
  rfl

/-! ### Acceptance (R183, R185) -/

theorem State.routePacket_command {c : Command} (h : c.kind ≠ 0x70) : s.routePacket link c = s.acceptCommand link c :=
  if_neg h

/-- Whether a link accepts a command does not depend on its receiver. -/
theorem State.acceptCommand_setReceiver (s : State) (link : Side) (r : Receiver) (c : Command) :
    (s.setReceiver link r).acceptCommand link c =
      if (s.unit link).channel.queue.length < 4 ∧
          (s.unit link).channel.queue.length + (s.unit link).channel.responses.length < 8 then
        (s.setReceiver link r).modChannel link fun x => { x with queue := x.queue ++ [c] }
      else
        ((s.setReceiver link r).modChannel link fun x => { x with discards := x.discards + 1 }).raise
          (.disp link .commandDiscard) [] := by
  have haccepts : ((s.setReceiver link r).unit link).channel.accepts = (s.unit link).channel.accepts := by
    rw [State.setReceiver, State.modChannel_unit_same]
    rfl
  unfold State.acceptCommand
  simp only [haccepts, Link.accepts_iff]

end

/-- Settles O46: each byte and the packet timer by the state of the receiver, and a command by the acceptance check. -/
theorem theReceiverTakesBytesAndPackets : Obligations.TheReceiverTakesBytesAndPackets := by
  unfold Obligations.TheReceiverTakesBytesAndPackets
  intro t link b s s0 l put done timeout
  have hl : l = (s0.unit link).channel := by rw [State.advance_unit]
  have htaken : s.clearing = false → done = .next (s0.takeByte link b) := fun hclearing =>
    exec_returnLaneByte_taken hclearing t link b
  have htimeout : timeout = .next (s0.packetTimedOut link) := rfl
  refine ⟨fun hclearing => ?_, fun hwait => ?_, fun hclearing hwait => ⟨?_, ?_⟩, fun len buffer due hcollect => ⟨?_, ?_, ?_⟩,
    fun tag kind lo param due hclearing _ hcollect => ⟨?_, fun hcrc hkind => ⟨?_, ?_⟩⟩⟩
  · show Host.Outcome.next (if s.clearing then s0 else s0.takeByte link b) = _
    rw [if_pos hclearing]
  · rw [htimeout, State.packetTimedOut_waitLen (hl ▸ hwait)]
  · rintro ⟨hlow, hhigh⟩
    rw [htaken hclearing, State.takeByte_len (hl ▸ hwait) hlow hhigh, ← hl]
    rfl
  · intro hlen
    rw [htaken hclearing, State.takeByte_badLen (hl ▸ hwait) hlen]
  · intro n hdue hup
    rw [htimeout, State.packetTimedOut_collecting (hl ▸ hcollect), hdue, if_pos ((timeUp_some n _).2 hup)]
    rfl
  · intro hnot
    have hearly : ¬ timeUp due s0.clock = true := by
      cases due with
      | none => exact fun h => by cases h
      | some n => exact fun h => Nat.not_le.2 (hnot n rfl) ((timeUp_some n _).1 h)
    rw [htimeout, State.packetTimedOut_collecting (hl ▸ hcollect), if_neg hearly]
  · intro hclearing hmore
    rw [htaken hclearing, State.takeByte_collect (hl ▸ hcollect) hmore]
    rfl
  · intro hcrc
    rw [htaken hclearing, State.takeByte_badCrc (hl ▸ hcollect) hcrc]
    rfl
  all_goals
    intro hlimits
    rw [htaken hclearing, State.takeByte_last (hl ▸ hcollect) hcrc, State.routePacket_command hkind,
      State.acceptCommand_setReceiver, ← hl]
  · rw [if_pos hlimits]
    rfl
  · rw [if_neg hlimits]
    rfl

end Sys2Proof.Machine
end

section
/-! SUPPORT. The frame trailer (R192 to R194): its bytes piece by piece, and the state that an output frame start
captures in it. -/

namespace Sys2Proof.Machine

/-! ### Pieces of the trailer (R125, R130, R193) -/

/-- The flags under a mask of n bits from bit lo are the n flags from there. -/
theorem and_mask_eq_zero_iff (x : BitVec 51) (lo n : Nat) :
    x &&& BitVec.ofNat 51 ((2 ^ n - 1) * 2 ^ lo) = 0 ↔ x.extractLsb' lo n = 0 := by
  have hmask : ∀ i, i < 51 → (BitVec.ofNat 51 ((2 ^ n - 1) * 2 ^ lo)).getLsbD i = (decide (lo ≤ i) && decide (i - lo < n)) :=
    fun i hi => by
      rw [BitVec.getLsbD_ofNat, decide_eq_true hi, Bool.true_and, Nat.testBit_mul_two_pow, Nat.testBit_two_pow_sub_one]
  constructor
  · intro h
    refine BitVec.eq_of_getLsbD_eq fun i hi => ?_
    rw [BitVec.getLsbD_extractLsb', decide_eq_true hi, Bool.true_and]
    by_cases hbit : lo + i < 51
    · have hzero := congrArg (BitVec.getLsbD · (lo + i)) h
      simpa [hmask _ hbit, hi] using hzero
    · rw [BitVec.getLsbD_of_ge _ _ (Nat.le_of_not_lt hbit)]
      exact BitVec.getLsbD_zero.symm
  · intro h
    refine BitVec.eq_of_getLsbD_eq fun i hi => ?_
    have hnone : (0 : BitVec 51).getLsbD i = false := BitVec.getLsbD_zero
    rw [BitVec.getLsbD_and, hmask i hi, hnone]
    by_cases hin : lo ≤ i ∧ i - lo < n
    · have hzero := congrArg (BitVec.getLsbD · (i - lo)) h
      simpa [hin.1, hin.2, Nat.add_sub_cancel' hin.1] using hzero
    · rw [← Bool.decide_and, decide_eq_false hin, Bool.and_false]

theorem bitOf_bne_zero (x : BitVec 51) (lo n : Nat) :
    bitOf (x &&& BitVec.ofNat 51 ((2 ^ n - 1) * 2 ^ lo) != 0) = if x.extractLsb' lo n = 0 then 0 else 1 := by
  by_cases h : x.extractLsb' lo n = 0
  · rw [if_pos h, (and_mask_eq_zero_iff x lo n).2 h]
    rfl
  · rw [if_neg h, bne_iff_ne.2 fun he => h ((and_mask_eq_zero_iff x lo n).1 he)]
    rfl

/-- The event summary, group by group (R125). -/
theorem FaultManager.summary_eq (fm : FaultManager) :
    let any := fun lo n : Nat => if fm.flags.extractLsb' lo n = 0 then 0 else 1
    fm.summary = any 0 13 + 2 * any 13 13 + 4 * any 26 12 + 8 * any 38 5 + 16 * any 43 5 + 32 * any 48 3 := by
  intro any
  have hany : ∀ lo n, bitOf (fm.flags &&& BitVec.ofNat 51 ((2 ^ n - 1) * 2 ^ lo) != 0) = any lo n :=
    bitOf_bne_zero fm.flags
  have hsummary : fm.summary =
      ([(0, 13), (13, 13), (26, 12), (38, 5), (43, 5), (48, 3)].zipIdx.map fun e =>
        bitOf (fm.flags &&& BitVec.ofNat 51 ((2 ^ e.1.2 - 1) * 2 ^ e.1.1) != 0) * 2 ^ e.2).sum := rfl
  rw [hsummary]
  simp only [hany, List.zipIdx_cons, List.zipIdx_nil, List.map_cons, List.map_nil, List.sum_cons, List.sum_nil]
  omega

theorem FaultManager.attention_eq (fm : FaultManager) :
    bitOf fm.attention = if fm.holdOff = none ∧ fm.flags &&& fm.enables ≠ 0 then 1 else 0 := by
  have hattention : fm.attention = true ↔ fm.holdOff = none ∧ fm.flags &&& fm.enables ≠ 0 := by
    rw [FaultManager.attention, Bool.and_eq_true, Option.isNone_iff_eq_none, bne_iff_ne]
  by_cases h : fm.attention = true
  · rw [if_pos (hattention.1 h), h]
    rfl
  · rw [if_neg fun he => h (hattention.2 he), Bool.eq_false_iff.2 h]
    rfl

theorem healthByte_eq (ts : TableStore) :
    healthByte ts = (allKinds.map fun k => if (ts.kind k).corrupt then 2 ^ k.code else 0).sum := by
  refine congrArg List.sum (List.map_congr_left fun k _ => ?_)
  cases (ts.kind k).corrupt <;> simp [bitOf]

theorem Executor.two_mul_bitOf_isResetPending (e : Executor) :
    2 * bitOf e.isResetPending = if e.isResetPending then 2 else 0 := by cases e.isResetPending <;> rfl

/-- A CRC at the end of a trailer, low byte first (R194). -/
theorem bytes2_crc (crc : Half) : bytes2 crc.toNat = [crc.truncate 8, (crc >>> 8).truncate 8] := by
  have hlow : BitVec.ofNat 8 crc.toNat = crc.truncate 8 := by
    apply BitVec.eq_of_toNat_eq
    simp
  have hhigh : BitVec.ofNat 8 (crc.toNat / 256) = (crc >>> 8).truncate 8 := by
    apply BitVec.eq_of_toNat_eq
    simp [Nat.shiftRight_eq_div_pow]
  rw [bytes2, hlow, hhigh]

/-! ### The bytes after the frame number (R193) -/

/-- The bytes of a trailer from its capture instant to its response count. -/
def trailerState (s : State) (side : Side) (count : Nat) : List Byte :=
  let u := s.unit side
  bytes4 s.now.toNat ++
    [BitVec.ofNat 8 (s.mode.code + if s.executor.isResetPending then 2 else 0),
      BitVec.ofNat 8 (u.light.dayNight.code + 16 * u.light.force.code)] ++
    bytes2 u.light.backlight ++
    [if s.faults.holdOff = none ∧ s.faults.flags &&& s.faults.enables ≠ 0 then 1 else 0,
      BitVec.ofNat 8 s.faults.summary, u.channel.discards,
      BitVec.ofNat 8 ((allKinds.map fun k => if (s.tables.kind k).corrupt then 2 ^ k.code else 0).sum)] ++
    allKinds.flatMap (fun k => bytes2 (s.tables.kind k).generation) ++ viewBlock u.main ++ viewBlock u.wide ++
    timingBytes s.left.ingest.lastPeriod ++ timingBytes s.right.ingest.lastPeriod ++
    timingBytes u.ingest.lastActive ++ timingBytes s.skew ++ timingBytes u.composer.period ++
    [BitVec.ofNat 8 u.composer.timing.code, BitVec.ofNat 8 count]

theorem trailerHead_eq (s : State) (side : Side) (count : Nat) :
    trailerHead s side count = bytes2 (s.unit side).composer.frameNumber.toNat ++ trailerState s side count := by
  have hattention : BitVec.ofNat 8 (bitOf s.faults.attention) =
      if s.faults.holdOff = none ∧ s.faults.flags &&& s.faults.enables ≠ 0 then 1 else 0 := by
    rw [FaultManager.attention_eq]
    split <;> rfl
  delta trailerHead trailerState
  simp only [byte1, timingBytes, lightByte, Executor.two_mul_bitOf_isResetPending, hattention,
    healthByte_eq, List.append_assoc, List.cons_append, List.nil_append]

/-! ### What is captured (R189, R192) -/

section
variable (s : State) (side : Side)

/-- The capture changes nothing that a trailer shows but the frame number. -/
theorem trailerState_modComposer (count : Nat) {f : Composer → Composer} (hperiod : ∀ c, (f c).period = c.period)
    (htiming : ∀ c, (f c).timing = c.timing) :
    trailerState (s.modComposer side f) side count = trailerState s side count := by
  have hleft : (s.modComposer side f).left.ingest = s.left.ingest := by cases side <;> rfl
  have hright : (s.modComposer side f).right.ingest = s.right.ingest := by cases side <;> rfl
  simp only [trailerState, State.now, State.modComposer_unit_same, State.modComposer_clock, State.modComposer_mode,
    State.modComposer_executor, State.modComposer_faults, State.modComposer_tables, State.modComposer_skew, hleft, hright,
    hperiod, htiming]

/-- A trailer shows the state that its capture leaves, with the frame number and the responses that the capture finds. -/
theorem State.captureTrailer_trailer :
    let taken := (s.unit side).channel.responses.take 4
    let body := bytes2 (s.unit side).composer.frameNumber.toNat ++
      trailerState (s.captureTrailer side) side taken.length ++ taken.flatMap Response.bytes
    ((s.captureTrailer side).unit side).composer.trailer = body ++ bytes2 (crc16 body).toNat := by
  intro taken body
  have hbody : trailerHead (s.modChannel side fun l => { l with responses := l.responses.drop 4 }) side taken.length ++
      taken.flatMap Response.bytes = body := by
    unfold body
    rw [trailerHead_eq, State.captureTrailer, trailerState_modComposer]
    · rw [State.modChannel_unit_same]
      rfl
    · exact fun _ => rfl
    · exact fun _ => rfl
  rw [← hbody]
  simp only [State.captureTrailer, State.modComposer_unit_same]
  rfl

theorem State.beforeBacklight_unit :
    ((s.beforeBacklight side).unit side).channel = (s.unit side).channel ∧
      ((s.beforeBacklight side).unit side).composer.frameNumber = (s.unit side).composer.frameNumber := by
  obtain ⟨main, wide, policy, hunit⟩ := s.afterViews_unit side
  rw [State.beforeBacklight, State.modComposer_unit_same, hunit]
  exact ⟨rfl, Composer.outputStart_frameNumber _ _ _⟩

/-- The trailer of an output frame start: the state that it leaves, with the frame number and the responses that it
found (R189, R192 to R194). -/
theorem State.takeOutputStart_trailer :
    let taken := (s.unit side).channel.responses.take 4
    let body := bytes2 (s.unit side).composer.frameNumber.toNat ++
      trailerState (s.takeOutputStart side) side taken.length ++ taken.flatMap Response.bytes
    ((s.takeOutputStart side).unit side).composer.trailer = body ++ bytes2 (crc16 body).toNat := by
  have hstart : s.takeOutputStart side = ((s.beforeBacklight side).backlightStart side).captureTrailer side :=
    s.takeOutputStart_eq side
  obtain ⟨light, hlight⟩ := (s.beforeBacklight side).backlightStart_unit side
  obtain ⟨hchannel, hnumber⟩ := s.beforeBacklight_unit side
  have htrailer := ((s.beforeBacklight side).backlightStart side).captureTrailer_trailer side
  rw [← hstart] at htrailer
  simpa only [hlight, hchannel, hnumber] using htrailer

end

/-- Settles O50: the trailer captured is that of the state left, piece by piece, and its pixels are its bytes. -/
theorem theTrailerIsASnapshot : Obligations.TheTrailerIsASnapshot := by
  unfold Obligations.TheTrailerIsASnapshot
  intro t side s hdue
  refine ⟨(s.advance t).takeOutputStart side, exec_outputFrameStart_due t hdue, ?_⟩
  have htrailer := (s.advance t).takeOutputStart_trailer side
  have hnow : ((s.advance t).takeOutputStart side).now = t := by
    rw [State.now, ((s.advance t).takeOutputStart_onlySide side).clock]
    exact s.advance_now t
  rw [State.advance_unit] at htrailer
  generalize (s.advance t).takeOutputStart side = s' at hnow htrailer ⊢
  intro u fm taken value any block response body
  have hblock : viewBlock = block := funext fun x => by
    simp only [viewBlock, block]
    cases x.ring.find .shown with
    | none => rfl
    | some b =>
      obtain ⟨status, record, picture⟩ := b
      cases record with
      | none => simp only [Option.bind_some, Option.bind_none, Option.map_none, Option.getD_none]; rfl
      | some r => rfl
  have hbody : bytes2 (s.unit side).composer.frameNumber.toNat ++ trailerState s' side taken.length ++
      taken.flatMap Response.bytes = body := by
    simp only [body, trailerState, hnow, FaultManager.summary_eq, hblock, List.append_assoc]
    rfl
  refine ⟨?_, fun x y _ _ => ?_⟩
  · rw [← bytes2_crc, ← hbody]
    exact htrailer
  · have hmain : ¬ 800 + y < 512 := by omega
    have hwide : ¬ 800 + y < 800 := by omega
    rw [outputPixel, if_neg hmain, if_neg hwide, Nat.add_sub_cancel_left]
    rfl

end Sys2Proof.Machine
end

section
/-! SUPPORT. What a soft reset does to the table store (R177): the sync copies are completed and the reset's words
latched, which conserves the live words, the records but for their health, and the corruption list but for new
entries. -/

namespace Sys2Proof.Machine

/-! ### What reading and copying conserve -/

/-- A change of the store that keeps its soundness, the data of every live word, the scrubber, of each record all but
the sync copy and the health, and every entry of the corruption list; no CORRUPT kind is cured. -/
structure TableStore.Conserves (ts ts' : TableStore) : Prop where
  sound : ts.sound → ts'.sound
  record : ∀ k, ts'.kind k = { ts.kind k with sync := (ts'.kind k).sync, corrupt := (ts'.kind k).corrupt }
  corrupt : ∀ k, (ts.kind k).corrupt = true → (ts'.kind k).corrupt = true
  corruptions : ts.corruptions <+: ts'.corruptions
  scrubPosition : ts'.scrubPosition = ts.scrubPosition
  scrubDue : ts'.scrubDue = ts.scrubDue
  data : ts.sound → ∀ k off, off < k.size →
    (ts'.word k (ts.kind k).live off).data = (ts.word k (ts.kind k).live off).data

namespace TableStore.Conserves
variable {ts ts' ts'' : TableStore}

theorem refl (ts : TableStore) : ts.Conserves ts :=
  ⟨id, fun _ => rfl, fun _ => id, List.prefix_rfl, rfl, rfl, fun _ _ _ _ => rfl⟩

theorem live (h : ts.Conserves ts') (k : Kind) : (ts'.kind k).live = (ts.kind k).live := by rw [h.record k]

theorem trans (h : ts.Conserves ts') (h' : ts'.Conserves ts'') : ts.Conserves ts'' where
  sound hs := h'.sound (h.sound hs)
  record k := by
    have hrecord := h'.record k
    rw [h.record k] at hrecord
    exact hrecord
  corrupt k hk := h'.corrupt k (h.corrupt k hk)
  corruptions := h.corruptions.trans h'.corruptions
  scrubPosition := h'.scrubPosition.trans h.scrubPosition
  scrubDue := h'.scrubDue.trans h.scrubDue
  data hs k off hoff := by
    have hdata := h'.data (h.sound hs) k off hoff
    rw [h.live k] at hdata
    exact hdata.trans (h.data hs k off hoff)

end TableStore.Conserves

/-- Reading a word conserves the store (R157, R161). -/
theorem State.readWord_conserves (s : State) (k : Kind) (b : Bank) (off : Nat) :
    s.tables.Conserves (s.readWord k b off).2.tables := by
  have hcorrupt : ∀ j, (s.tables.kind j).corrupt = true → ((s.corruptKind k off).tables.kind j).corrupt = true :=
    fun j hj => by
      rw [State.corruptKind_tables]
      split
      next => exact hj
      next =>
        by_cases hjk : j = k
        · rw [hjk, TableStore.modKind_corruptions_kind_same]
        · rwa [TableStore.modKind_corruptions_kind_of_ne _ hjk]
  have hlist : s.tables.corruptions <+: (s.corruptKind k off).tables.corruptions ∧
      (s.corruptKind k off).tables.scrubPosition = s.tables.scrubPosition ∧
      (s.corruptKind k off).tables.scrubDue = s.tables.scrubDue := by
    rw [State.corruptKind_tables]
    split
    next => exact ⟨List.prefix_rfl, rfl, rfl⟩
    next => exact ⟨List.prefix_append .., rfl, rfl⟩
  have hrest : (∀ j, (s.tables.kind j).corrupt = true → ((s.readWord k b off).2.tables.kind j).corrupt = true) ∧
      s.tables.corruptions <+: (s.readWord k b off).2.tables.corruptions ∧
      (s.readWord k b off).2.tables.scrubPosition = s.tables.scrubPosition ∧
      (s.readWord k b off).2.tables.scrubDue = s.tables.scrubDue := by
    rcases s.readWord_cases k b off with ⟨-, e⟩ | ⟨-, e⟩ | ⟨-, e⟩ <;> rw [e]
    · exact ⟨fun _ => id, List.prefix_rfl, rfl, rfl⟩
    · exact ⟨fun _ => id, List.prefix_rfl, rfl, rfl⟩
    · dsimp only
      split
      next => exact ⟨hcorrupt, hlist⟩
      next => exact ⟨fun _ => id, List.prefix_rfl, rfl, rfl⟩
  obtain ⟨hhealth, hcorruptions, hposition, hdue⟩ := hrest
  refine ⟨fun hs => State.readWord_tables_sound hs k b off, fun j => ?_, hhealth, hcorruptions, hposition, hdue,
    fun hs j o _ => State.readWord_data hs.1 k b off _⟩
  obtain ⟨health, hrecord⟩ := s.readWord_record k b off j
  rw [hrecord]

theorem State.latch_conserves (s : State) (k : Kind) (offs : List Nat) :
    s.tables.Conserves (s.latch k offs).2.tables :=
  State.latch_induction (p := fun x => s.tables.Conserves x.tables) (.refl _) fun x off _ h =>
    h.trans (x.readWord_conserves k _ off)

/-- A latch changes the data of no word as written (R157). -/
theorem State.latch_data {s : State} (hs : s.tables.sound) (k : Kind) (offs : List Nat) (addr : Nat) :
    (ramRead (s.latch k offs).2.tables.ram addr).data = (ramRead s.tables.ram addr).data := by
  refine (State.latch_induction (p := fun x => x.tables.sound ∧
    (ramRead x.tables.ram addr).data = (ramRead s.tables.ram addr).data) ⟨hs, rfl⟩ ?_).2
  exact fun x off _ ⟨hx, hdata⟩ =>
    ⟨State.readWord_tables_sound hx _ _ _, (State.readWord_data hx.1 _ _ off addr).trans hdata⟩

/-! ### One word of a sync copy (R168) -/

/-- The data that the sync copy writes for a live word: corrected, or as read where it holds a double error. -/
def TableWord.copied (w : TableWord) : Word := if w.errors < 2 then w.data else w.asRead

/-- The sync copy after the word at `next`. -/
def SyncCopy.after (c : SyncCopy) (k : Kind) : Option SyncCopy :=
  if c.next + 1 < k.size then some { c with next := c.next + 1 } else none

theorem SyncCopy.next_of_after {c c' : SyncCopy} {k : Kind} (h : c.after k = some c') : c'.next = c.next + 1 := by
  unfold SyncCopy.after at h
  split at h
  next => cases h; rfl
  next => cases h

section
variable (s : State) (k : Kind) (c : SyncCopy)

/-- The tables after one word of a sync copy: the live word is read, and its data written into the shadow. -/
theorem State.copyWord_tables :
    (s.copyWord k c).tables =
      (((s.readWord k (s.tables.kind k).live c.next).2.tables.writeWord k (s.tables.kind k).live.other c.next
          (s.tables.word k (s.tables.kind k).live c.next).copied).modKind k fun r => { r with sync := c.after k }) := by
  have hdata : (s.readWord k (s.tables.kind k).live c.next).1.getD
      (s.tables.word k (s.tables.kind k).live c.next).asRead =
        (s.tables.word k (s.tables.kind k).live c.next).copied := by
    unfold TableWord.copied
    split
    next h => rw [State.readWord_corrected h]; rfl
    next h => rw [State.readWord_double (Nat.le_of_not_lt h)]; rfl
  rw [← hdata]
  rfl

theorem State.copyWord_kind_same :
    (s.copyWord k c).tables.kind k =
      { (s.readWord k (s.tables.kind k).live c.next).2.tables.kind k with sync := c.after k } := by
  rw [State.copyWord_tables, TableStore.modKind_kind_same, TableStore.writeWord_kind]

theorem State.copyWord_live : ((s.copyWord k c).tables.kind k).live = (s.tables.kind k).live := by
  rw [State.copyWord_kind_same]
  exact s.readWord_live k _ c.next k

theorem State.copyWord_kind_of_ne {j : Kind} (h : j ≠ k) : (s.copyWord k c).tables.kind j = s.tables.kind j := by
  rw [State.copyWord_tables, TableStore.modKind_kind_of_ne _ h, TableStore.writeWord_kind, s.readWord_kind h]

/-- A word copy changes no word but the live one that it reads and the shadow one that it writes. -/
theorem State.copyWord_word {j : Kind} {b : Bank} {off : Nat}
    (hread : ramAddress j b off ≠ ramAddress k (s.tables.kind k).live c.next)
    (hwrite : ramAddress j b off ≠ ramAddress k (s.tables.kind k).live.other c.next) :
    (s.copyWord k c).tables.word j b off = s.tables.word j b off := by
  rw [State.copyWord_tables]
  exact (ramRead_ramWrite_other _ _ hwrite).trans (s.readWord_word hread)

/-- The shadow word that a word copy writes. -/
theorem State.copyWord_shadow (hs : s.tables.sound) :
    ((s.copyWord k c).tables.word k (s.tables.kind k).live.other c.next).data =
      (s.tables.word k (s.tables.kind k).live c.next).copied := by
  rw [State.copyWord_tables]
  exact congrArg TableWord.data (ramRead_ramWrite_same (State.readWord_tables_sound hs k _ _).1 _ _)

theorem State.copyWord_conserves (hc : (s.tables.kind k).sync = some c) :
    s.tables.Conserves (s.copyWord k c).tables := by
  have hread := s.readWord_conserves k (s.tables.kind k).live c.next
  refine hread.trans ?_
  rw [State.copyWord_tables]
  have hlive := hread.live k
  obtain ⟨health, hrecord⟩ := s.readWord_record k (s.tables.kind k).live c.next k
  generalize (s.readWord k (s.tables.kind k).live c.next).2.tables = ts at *
  rw [← hlive]
  have hnext : ts.sound → c.next < k.size := fun hts => hts.2.1 k c (by rw [hrecord, hc])
  have hupkeep : ts.Upkeep _ := (TableStore.Upkeep.writeShadow (k := k) hnext
    (s.tables.word k (ts.kind k).live c.next).copied).trans
      (.modKind (k := k) (f := fun r => { r with sync := c.after k }) rfl rfl rfl fun _ c' hc' => by
        dsimp only [SyncCopy.after] at hc'
        split at hc'
        next hlt => cases hc'; exact hlt
        next => cases hc')
  refine ⟨hupkeep.sound, fun j => ?_, fun j hj => (hupkeep.corrupt j).trans hj, List.prefix_rfl, rfl, rfl,
    hupkeep.data⟩
  by_cases hj : j = k
  · rw [hj, TableStore.modKind_kind_same]
    rfl
  · rw [TableStore.modKind_kind_of_ne _ hj]
    rfl

end

/-! ### A whole sync copy (R177) -/

/-- A kind whose sync copy is completed, seen from the state before: no copy is in progress, and the shadow words that
were still to be copied hold the data of the live words. -/
def State.SyncFinished (s s' : State) (k : Kind) : Prop :=
  ∀ off, off < k.size →
    (s'.tables.word k (s.tables.kind k).live.other off).data =
      match (s.tables.kind k).sync with
      | none => (s.tables.word k (s.tables.kind k).live.other off).data
      | some c =>
        if off < c.next then (s.tables.word k (s.tables.kind k).live.other off).data
        else (s.tables.word k (s.tables.kind k).live off).copied

section
variable {s : State} {k : Kind}

theorem State.finishSync_of_none (h : (s.tables.kind k).sync = none) (fuel : Nat) : s.finishSync k fuel = s := by
  cases fuel with
  | zero => rfl
  | succ n => rw [State.finishSync, h]

theorem State.finishSync_succ {c : SyncCopy} (h : (s.tables.kind k).sync = some c) (fuel : Nat) :
    s.finishSync k (fuel + 1) = (s.copyWord k c).finishSync k fuel := by rw [State.finishSync, h]

/-- What every word copy keeps, the completion of a sync copy keeps. -/
theorem State.finishSync_induction {p : State → Prop} (fuel : Nat) (h : p s)
    (hword : ∀ x c, (x.tables.kind k).sync = some c → p x → p (x.copyWord k c)) : p (s.finishSync k fuel) := by
  induction fuel generalizing s with
  | zero => exact h
  | succ n ih =>
    cases hc : (s.tables.kind k).sync with
    | none => rwa [State.finishSync_of_none hc]
    | some c =>
      rw [State.finishSync_succ hc]
      exact ih (hword s c hc h)

/-- As many word copies as the bank has words leave no copy in progress. -/
theorem State.finishSync_sync {fuel : Nat} (hpos : 0 < fuel)
    (hfuel : ∀ c, (s.tables.kind k).sync = some c → k.size ≤ c.next + fuel) :
    ((s.finishSync k fuel).tables.kind k).sync = none := by
  induction fuel generalizing s with
  | zero => exact absurd hpos (Nat.lt_irrefl 0)
  | succ n ih =>
    cases hc : (s.tables.kind k).sync with
    | none => rwa [State.finishSync_of_none hc]
    | some c =>
      have hle := hfuel c hc
      have hnext : ((s.copyWord k c).tables.kind k).sync = c.after k := by rw [State.copyWord_kind_same]
      rw [State.finishSync_succ hc]
      unfold SyncCopy.after at hnext
      split at hnext
      next hlt =>
        refine ih (by omega) fun c' hc' => ?_
        rw [hnext] at hc'
        cases hc'
        dsimp only
        omega
      next => rwa [State.finishSync_of_none hnext]

theorem State.finishSync_conserves (fuel : Nat) : s.tables.Conserves (s.finishSync k fuel).tables :=
  State.finishSync_induction (p := fun x => s.tables.Conserves x.tables) fuel (.refl _) fun x c hc h =>
    h.trans (x.copyWord_conserves k c hc)

/-- The sync copy of a kind leaves the records of the others. -/
theorem State.finishSync_kind_of_ne {j : Kind} (h : j ≠ k) (fuel : Nat) :
    (s.finishSync k fuel).tables.kind j = s.tables.kind j :=
  State.finishSync_induction (p := fun x => x.tables.kind j = s.tables.kind j) fuel rfl fun x c _ hx =>
    (x.copyWord_kind_of_ne k c h).trans hx

/-- The sync copy of a kind leaves the words of the others. -/
theorem State.finishSync_word_of_ne (hs : s.tables.sound) {j : Kind} (h : j ≠ k) (fuel : Nat) {b : Bank} {off : Nat}
    (hoff : off < j.size) : (s.finishSync k fuel).tables.word j b off = s.tables.word j b off := by
  refine (State.finishSync_induction
    (p := fun x => x.tables.sound ∧ x.tables.word j b off = s.tables.word j b off) fuel ⟨hs, rfl⟩ ?_).2
  rintro x c hc ⟨hx, hword⟩
  have hnext := hx.2.1 k c hc
  have hne : ∀ b', ramAddress j b off ≠ ramAddress k b' c.next := fun b' e => h (ramAddress_inj hoff hnext e).1
  exact ⟨(x.copyWord_conserves k c hc).sound hx, (x.copyWord_word k c (hne _) (hne _)).trans hword⟩

/-- The words of a sync copy, one after the other: those before `next` stand, the others are copied. -/
theorem State.finishSync_finished (hs : s.tables.sound) {fuel : Nat}
    (hfuel : ∀ c, (s.tables.kind k).sync = some c → k.size ≤ c.next + fuel) :
    s.SyncFinished (s.finishSync k fuel) k := by
  induction fuel generalizing s with
  | zero =>
    intro off _
    cases hc : (s.tables.kind k).sync with
    | none => rfl
    | some c => exact absurd (hs.2.1 k c hc) (Nat.not_lt.2 (hfuel c hc))
  | succ n ih =>
    intro off hoff
    cases hc : (s.tables.kind k).sync with
    | none => rw [State.finishSync_of_none hc]
    | some c =>
      have hnext := hs.2.1 k c hc
      have hsound := (s.copyWord_conserves k c hc).sound hs
      have hsync : ((s.copyWord k c).tables.kind k).sync = c.after k := by rw [State.copyWord_kind_same]
      have hrest := ih hsound (fun c' hc' => by
        have hle := hfuel c hc
        have hmove := SyncCopy.next_of_after (hsync.symm.trans hc')
        omega) off hoff
      rw [State.copyWord_live, hsync] at hrest
      have hshadow : off ≠ c.next → (s.copyWord k c).tables.word k (s.tables.kind k).live.other off =
          s.tables.word k (s.tables.kind k).live.other off := fun hne =>
        s.copyWord_word k c (fun e => (Bank.other_ne _) (ramAddress_inj hoff hnext e).2.1)
          fun e => hne (ramAddress_inj hoff hnext e).2.2
      have hlive : off ≠ c.next → (s.copyWord k c).tables.word k (s.tables.kind k).live off =
          s.tables.word k (s.tables.kind k).live off := fun hne =>
        s.copyWord_word k c (fun e => hne (ramAddress_inj hoff hnext e).2.2)
          fun e => (Bank.other_ne _) (ramAddress_inj hoff hnext e).2.1.symm
      rw [State.finishSync_succ hc, hrest]
      dsimp only
      rcases Nat.lt_trichotomy off c.next with hlt | heq | hgt
      · rw [if_pos hlt, hshadow (by omega)]
        split
        next => rfl
        next hc' =>
          have hmove := SyncCopy.next_of_after hc'
          rw [if_pos (by omega)]
      · rw [if_neg (by omega), heq, ← s.copyWord_shadow k c hs]
        split
        next => rfl
        next hc' =>
          have hmove := SyncCopy.next_of_after hc'
          rw [if_pos (by omega)]
      · rw [if_neg (by omega), ← hlive (by omega), SyncCopy.after, if_pos (by omega)]
        dsimp only
        rw [if_neg (by omega)]

end

/-! ### The sync copies of all kinds (R177) -/

/-- The sync copies of a list of kinds are completed. -/
def State.finishSyncsOf (s : State) (kinds : List Kind) : State := kinds.foldl (fun s1 k => s1.finishSync k k.size) s

theorem State.finishSyncs_eq (s : State) : s.finishSyncs = s.finishSyncsOf allKinds := rfl

theorem Kind.size_pos (k : Kind) : 0 < k.size := by cases k <;> decide

theorem mem_allKinds (k : Kind) : k ∈ allKinds := by cases k <;> decide

theorem State.finishSyncsOf_cons (s : State) (k : Kind) (rest : List Kind) :
    s.finishSyncsOf (k :: rest) = (s.finishSync k k.size).finishSyncsOf rest := rfl

section
variable {s : State}

theorem State.finishSyncsOf_conserves (kinds : List Kind) : s.tables.Conserves (s.finishSyncsOf kinds).tables := by
  induction kinds generalizing s with
  | nil => exact .refl _
  | cons k rest ih => exact (State.finishSync_conserves k.size).trans ih

/-- A kind whose copy is not among those completed keeps its record. -/
theorem State.finishSyncsOf_kind {kinds : List Kind} {j : Kind} (h : j ∉ kinds) :
    (s.finishSyncsOf kinds).tables.kind j = s.tables.kind j := by
  induction kinds generalizing s with
  | nil => rfl
  | cons k rest ih =>
    obtain ⟨hne, hrest⟩ := not_or.1 (mt List.mem_cons.2 h)
    exact (ih hrest).trans (State.finishSync_kind_of_ne hne k.size)

theorem State.finishSyncsOf_word (hs : s.tables.sound) {kinds : List Kind} {j : Kind} (h : j ∉ kinds) {b : Bank}
    {off : Nat} (hoff : off < j.size) : (s.finishSyncsOf kinds).tables.word j b off = s.tables.word j b off := by
  induction kinds generalizing s with
  | nil => rfl
  | cons k rest ih =>
    obtain ⟨hne, hrest⟩ := not_or.1 (mt List.mem_cons.2 h)
    exact (ih ((State.finishSync_conserves k.size).sound hs) hrest).trans
      (State.finishSync_word_of_ne hs hne k.size hoff)

theorem State.finishSyncsOf_of_none {kinds : List Kind} (h : ∀ k ∈ kinds, (s.tables.kind k).sync = none) :
    s.finishSyncsOf kinds = s := by
  induction kinds with
  | nil => rfl
  | cons k rest ih =>
    rw [State.finishSyncsOf_cons, State.finishSync_of_none (h k (List.mem_cons_self ..)),
      ih fun j hj => h j (List.mem_cons_of_mem _ hj)]

theorem State.finishSyncsOf_sync {kinds : List Kind} (hd : kinds.Nodup) {j : Kind} (hj : j ∈ kinds) :
    ((s.finishSyncsOf kinds).tables.kind j).sync = none := by
  induction kinds generalizing s with
  | nil => cases hj
  | cons k rest ih =>
    obtain ⟨hnot, hrest⟩ := List.nodup_cons.1 hd
    rw [State.finishSyncsOf_cons]
    rcases List.mem_cons.1 hj with rfl | hj
    · rw [State.finishSyncsOf_kind hnot]
      exact State.finishSync_sync (Kind.size_pos j) fun c _ => Nat.le_add_left ..
    · exact ih hrest hj

/-- A kind without a sync copy keeps its record. -/
theorem State.finishSyncsOf_kind_of_none {kinds : List Kind} {j : Kind} (h : (s.tables.kind j).sync = none) :
    (s.finishSyncsOf kinds).tables.kind j = s.tables.kind j := by
  induction kinds generalizing s with
  | nil => rfl
  | cons k rest ih =>
    have hfirst : (s.finishSync k k.size).tables.kind j = s.tables.kind j := by
      by_cases hjk : j = k
      · rw [State.finishSync_of_none (hjk ▸ h)]
      · exact State.finishSync_kind_of_ne hjk k.size
    exact (ih (by rw [hfirst, h])).trans hfirst

theorem State.finishSyncsOf_finished (hs : s.tables.sound) {kinds : List Kind} (hd : kinds.Nodup) {j : Kind}
    (hj : j ∈ kinds) : s.SyncFinished (s.finishSyncsOf kinds) j := by
  induction kinds generalizing s with
  | nil => cases hj
  | cons k rest ih =>
    obtain ⟨hnot, hrest⟩ := List.nodup_cons.1 hd
    have hsound := (State.finishSync_conserves (s := s) (k := k) k.size).sound hs
    rw [State.finishSyncsOf_cons]
    intro off hoff
    rcases List.mem_cons.1 hj with rfl | hj
    · rw [State.finishSyncsOf_word hsound hnot hoff]
      exact State.finishSync_finished hs (fun c _ => Nat.le_add_left ..) off hoff
    · have hne : j ≠ k := fun e => hnot (e ▸ hj)
      have hdone := ih hsound hrest hj off hoff
      simp only [State.finishSync_kind_of_ne hne, State.finishSync_word_of_ne hs hne k.size hoff] at hdone
      exact hdone

end

end Sys2Proof.Machine
end

section
/-! SUPPORT. The latches of a soft reset (R24, R57, R177): what they read is what the store holds when they are done. -/

namespace Sys2Proof.Machine

/-! ### A latch and the store that it leaves -/

section
variable {s : State} {k : Kind} {offs : List Nat}

/-- A latch of words without an error changes nothing. -/
theorem State.latch_of_clean (h : ∀ off ∈ offs, (s.tables.word k (s.tables.kind k).live off).errors = 0) :
    (s.latch k offs).2 = s := by
  refine State.latch_induction (p := fun x => x = s) rfl ?_
  rintro x off hoff rfl
  rcases x.readWord_cases k (x.tables.kind k).live off with ⟨-, e⟩ | ⟨herr, -⟩ | ⟨herr, -⟩
  · rw [e]
  · rw [h off hoff] at herr; cases herr
  · rw [h off hoff] at herr; omega

theorem State.corruptKind_not_usable (s : State) (k : Kind) (off : Nat) :
    (s.corruptKind k off).tables.usable k = false := by
  rw [State.corruptKind_tables, TableStore.usable]
  split
  next h => rw [h, Bool.not_true, Bool.and_false]
  next => rw [TableStore.modKind_corruptions_kind_same, Bool.not_true, Bool.and_false]

/-- What a latch answers, from the store that it leaves: the words of a kind that is usable then (R160). -/
theorem State.latch_agrees (hd : offs.Nodup)
    (h : s.tables.sound ∨ ∀ off ∈ offs, (s.tables.word k (s.tables.kind k).live off).errors = 0) :
    (s.latch k offs).1 =
      if (s.latch k offs).2.tables.usable k then
        some ((s.latch k offs).2.tables.corrected k (s.tables.kind k).live offs)
      else none := by
  have hdata : (s.latch k offs).2.tables.corrected k (s.tables.kind k).live offs =
      s.tables.corrected k (s.tables.kind k).live offs := by
    refine List.map_congr_left fun off _ => ?_
    rcases h with hs | hclean
    · rw [TableStore.word, State.latch_data hs, TableStore.word]
    · rw [State.latch_of_clean hclean]
  cases hu : s.tables.usable k with
  | false =>
    rw [State.latch_not_usable hu]
    dsimp only
    rw [hu]
    rfl
  | true =>
    cases hfirst : s.tables.firstDouble k (s.tables.kind k).live offs with
    | none =>
      have husable : (s.latch k offs).2.tables.usable k = true := by
        rw [State.latch_words hd hu hfirst, TableStore.usable, State.repaired_kind]
        exact hu
      rw [if_pos husable, hdata, State.latch_words hd hu hfirst]
    | some e =>
      obtain ⟨herr, before, after, rfl, hnone⟩ := TableStore.firstDouble_eq_some.1 hfirst
      rw [State.latch_corrupts hd hu herr hnone]
      dsimp only
      rw [State.corruptKind_not_usable]
      rfl

/-- A second latch of the same word finds it as the first one left it. -/
theorem State.latch_latch {off : Nat} (h : s.tables.sound ∨ (s.tables.word k (s.tables.kind k).live off).errors = 0) :
    ((s.latch k [off]).2.latch k [off]).2 = (s.latch k [off]).2 := by
  cases hu : s.tables.usable k with
  | false => rw [State.latch_not_usable hu, State.latch_not_usable hu]
  | true =>
    rcases Nat.lt_or_ge (s.tables.word k (s.tables.kind k).live off).errors 2 with hlt | hge
    · have hfirst : s.tables.firstDouble k (s.tables.kind k).live [off] = none :=
        TableStore.firstDouble_eq_none.2 fun o ho => by rwa [List.mem_singleton.1 ho]
      rw [State.latch_words (List.nodup_singleton off) hu hfirst]
      refine State.latch_of_clean fun o ho => ?_
      rw [List.mem_singleton.1 ho, State.repaired_kind]
      by_cases herr : (s.tables.word k (s.tables.kind k).live off).errors = 1
      · have hs : s.tables.sound := h.resolve_right (by omega)
        have hword : (s.repaired k (s.tables.kind k).live [off]).tables.word k (s.tables.kind k).live off =
            TableWord.fresh (s.tables.word k (s.tables.kind k).live off).data := by
          rw [State.repaired_single herr]
          exact ramRead_ramWrite_same hs.1 _ _
        rw [hword, TableWord.fresh_errors]
      · rw [State.repaired_clean herr]
        exact Nat.lt_one_iff.1 (Nat.lt_of_le_of_ne (Nat.le_of_lt_succ hlt) herr)
    · have hnot : (s.latch k [off]).2.tables.usable k = false := by
        have hlatch := State.latch_corrupts (before := []) (after := []) (List.nodup_singleton off) hu hge rfl
        rw [List.nil_append] at hlatch
        rw [hlatch]
        exact State.corruptKind_not_usable _ k off
      rw [State.latch_not_usable hnot]

/-- A latch leaves every sync copy as it is. -/
theorem State.latch_sync (s : State) (k : Kind) (offs : List Nat) (j : Kind) :
    ((s.latch k offs).2.tables.kind j).sync = (s.tables.kind j).sync :=
  State.latch_induction (p := fun x => (x.tables.kind j).sync = (s.tables.kind j).sync) rfl fun x off _ hx => by
    obtain ⟨health, hrecord⟩ := x.readWord_record k (s.tables.kind k).live off j
    rw [hrecord]
    exact hx

end

/-! ### The sync copies and latches of a soft reset -/

/-- The state after the latches of a soft reset: the timeout of each camera link, then the default origins. -/
def State.latchedForReset (s : State) : State :=
  (((s.latch .timing [2]).2.latch .timing [2]).2.latch .view [0, 8, 16, 24]).2

/-- The state after the sync copies and the latches of a soft reset, in which the blocks are reset. -/
def State.resetLatched (s : State) : State := s.finishSyncs.latchedForReset

/-- Whether the words that a soft reset latches hold no error. -/
def TableStore.resetWordsClean (ts : TableStore) : Prop :=
  (ts.word .timing (ts.kind .timing).live 2).errors = 0 ∧
    ∀ off ∈ [0, 8, 16, 24], (ts.word .view (ts.kind .view).live off).errors = 0

section
variable {s : State}

theorem State.finishSyncs_conserves (s : State) : s.tables.Conserves s.finishSyncs.tables := by
  rw [State.finishSyncs_eq]
  exact State.finishSyncsOf_conserves allKinds

theorem State.finishSyncs_of_none (h : ∀ k, (s.tables.kind k).sync = none) : s.finishSyncs = s := by
  rw [State.finishSyncs_eq]
  exact State.finishSyncsOf_of_none fun k _ => h k

theorem State.finishSyncs_onlySide (s : State) (side : Side) : OnlySide side s s.finishSyncs := by
  have hcopy : ∀ (x : State) k c, OnlySide side x (x.copyWord k c) := fun x k c => by
    have hread := x.readWord_onlySide side k (x.tables.kind k).live c.next
    unfold State.copyWord
    dsimp only
    generalize x.readWord k (x.tables.kind k).live c.next = read at hread ⊢
    obtain ⟨d, x1⟩ := read
    exact hread.trans (.of_reports (fm := x1.faults) side x1)
  have hfold : ∀ (kinds : List Kind) (x : State), OnlySide side x (x.finishSyncsOf kinds) := fun kinds => by
    induction kinds with
    | nil => exact fun x => .refl side x
    | cons k rest ih =>
      refine fun x => .trans ?_ (ih (x.finishSync k k.size))
      exact State.finishSync_induction (p := OnlySide side x) k.size (.refl side x) fun y c _ hy =>
        hy.trans (hcopy y k c)
  rw [State.finishSyncs_eq]
  exact hfold allKinds s

theorem State.latchedForReset_onlySide (s : State) (side : Side) : OnlySide side s s.latchedForReset :=
  have hfirst : OnlySide side s (s.latch .timing [2]).2 := State.latch_onlySide side s .timing [2]
  have hsecond := hfirst.trans (State.latch_onlySide side (s.latch .timing [2]).2 .timing [2])
  hsecond.trans (State.latch_onlySide side ((s.latch .timing [2]).2.latch .timing [2]).2 .view [0, 8, 16, 24])

theorem State.resetLatched_onlySide (s : State) (side : Side) : OnlySide side s s.resetLatched :=
  (s.finishSyncs_onlySide side).trans (s.finishSyncs.latchedForReset_onlySide side)

theorem State.resetLatched_unit (s : State) (side : Side) : s.resetLatched.unit side = s.unit side := by
  cases side with
  | left => exact (s.resetLatched_onlySide .right).other
  | right => exact (s.resetLatched_onlySide .left).other

theorem State.latchedForReset_conserves (s : State) : s.tables.Conserves s.latchedForReset.tables :=
  have hfirst := s.latch_conserves .timing [2]
  have hsecond := (s.latch .timing [2]).2.latch_conserves .timing [2]
  (hfirst.trans hsecond).trans (((s.latch .timing [2]).2.latch .timing [2]).2.latch_conserves .view [0, 8, 16, 24])

theorem State.resetLatched_conserves (s : State) : s.tables.Conserves s.resetLatched.tables :=
  s.finishSyncs_conserves.trans s.finishSyncs.latchedForReset_conserves

theorem State.resetLatched_sync (s : State) (k : Kind) : (s.resetLatched.tables.kind k).sync = none := by
  simp only [State.resetLatched, State.latchedForReset, State.latch_sync]
  rw [State.finishSyncs_eq]
  exact State.finishSyncsOf_sync (by decide) (mem_allKinds k)

/-- A kind that the reset does not latch keeps its record. -/
theorem State.latchedForReset_kind {k : Kind} (htiming : k ≠ .timing) (hview : k ≠ .view) :
    s.latchedForReset.tables.kind k = s.tables.kind k := by
  have hfirst := (s.latch_other_kind (offs := [2]) htiming (by decide)).1
  have hsecond := ((s.latch .timing [2]).2.latch_other_kind (offs := [2]) htiming (by decide)).1
  have hlast := (((s.latch .timing [2]).2.latch .timing [2]).2.latch_other_kind (offs := [0, 8, 16, 24]) hview
    (by decide)).1
  rw [State.latchedForReset, hlast, hsecond, hfirst]

/-- A kind that has no sync copy and is not latched keeps its record. -/
theorem State.resetLatched_kind {k : Kind} (h : (s.tables.kind k).sync = none) (htiming : k ≠ .timing)
    (hview : k ≠ .view) : s.resetLatched.tables.kind k = s.tables.kind k := by
  rw [State.resetLatched, State.latchedForReset_kind htiming hview, State.finishSyncs_eq]
  exact State.finishSyncsOf_kind_of_none h

/-- With no sync copy and no error in the words that it latches, the reset leaves the store as it is. -/
theorem State.resetLatched_of_clean (hsync : ∀ k, (s.tables.kind k).sync = none) (hclean : s.tables.resetWordsClean) :
    s.resetLatched = s := by
  obtain ⟨htiming, hview⟩ := hclean
  have hlatch : (s.latch .timing [2]).2 = s :=
    State.latch_of_clean fun off hoff => by rw [List.mem_singleton.1 hoff, htiming]
  rw [State.resetLatched, State.finishSyncs_of_none hsync, State.latchedForReset, hlatch, hlatch,
    State.latch_of_clean hview]

theorem State.latchedForReset_data (hs : s.tables.sound) (k : Kind) (b : Bank) (off : Nat) :
    (s.latchedForReset.tables.word k b off).data = (s.tables.word k b off).data := by
  have hfirst := (s.latch_conserves .timing [2]).sound hs
  have hsecond := ((s.latch .timing [2]).2.latch_conserves .timing [2]).sound hfirst
  simp only [State.latchedForReset, TableStore.word, State.latch_data hsecond, State.latch_data hfirst,
    State.latch_data hs]

/-- The shadow words after the sync copies are completed; the latches change no data (R157, R177). -/
theorem State.resetLatched_finished (hs : s.tables.sound) (k : Kind) : s.SyncFinished s.resetLatched k := by
  have hsync : s.finishSyncs.tables.sound := s.finishSyncs_conserves.sound hs
  have hdone : s.SyncFinished s.finishSyncs k := by
    rw [State.finishSyncs_eq]
    exact State.finishSyncsOf_finished hs (by decide) (mem_allKinds k)
  intro off hoff
  rw [State.resetLatched, State.latchedForReset_data hsync, hdone off hoff]

end

/-! ### What the latches read (R24, R57) -/

/-- Whether the reset's latches can be told from the store that they leave. -/
def State.latchReadable (s : State) : Prop := s.tables.sound ∨ s.tables.resetWordsClean

theorem State.finishSyncs_readable {s : State}
    (h : s.tables.sound ∨ ((∀ k, (s.tables.kind k).sync = none) ∧ s.tables.resetWordsClean)) :
    s.finishSyncs.latchReadable := by
  rcases h with hs | ⟨hsync, hclean⟩
  · exact .inl (s.finishSyncs_conserves.sound hs)
  · rw [State.finishSyncs_of_none hsync]
    exact .inr hclean

section
variable {s : State} (h : s.latchReadable)
include h

theorem State.latchReadable.timing :
    s.tables.sound ∨ (s.tables.word .timing (s.tables.kind .timing).live 2).errors = 0 := h.imp_right And.left

theorem State.latchReadable.timingWords :
    s.tables.sound ∨ ∀ off ∈ [2], (s.tables.word .timing (s.tables.kind .timing).live off).errors = 0 :=
  h.timing.imp_right fun hclean off hoff => by rw [List.mem_singleton.1 hoff, hclean]

theorem State.latchReadable.latch_timing : (s.latch .timing [2]).2.latchReadable := by
  rcases h with hs | hclean
  · exact .inl ((s.latch_conserves .timing [2]).sound hs)
  · rw [State.latch_of_clean fun off hoff => by rw [List.mem_singleton.1 hoff, hclean.1]]
    exact .inr hclean

/-- The two latches of the silent timeout leave what the first one leaves. -/
theorem State.latchedForReset_eq :
    s.latchedForReset = ((s.latch .timing [2]).2.latch .view [0, 8, 16, 24]).2 := by
  rw [State.latchedForReset, State.latch_latch h.timing]

/-- The timeout that the reset latches is that of the live bank that it leaves. -/
theorem State.timingRead_eq :
    (s.latch .timing [2]).1 =
      if s.latchedForReset.tables.usable .timing then
        some (s.latchedForReset.tables.corrected .timing (s.latchedForReset.tables.kind .timing).live [2])
      else none := by
  obtain ⟨hkind, hword⟩ := (s.latch .timing [2]).2.latch_other_kind (j := .timing) (k := .view)
    (offs := [0, 8, 16, 24]) (by decide) (by decide)
  rw [← State.latchedForReset_eq h] at hkind hword
  have hlive := (s.latch_conserves .timing [2]).live .timing
  have hcorrected : s.latchedForReset.tables.corrected .timing (s.latchedForReset.tables.kind .timing).live [2] =
      (s.latch .timing [2]).2.tables.corrected .timing (s.tables.kind .timing).live [2] :=
    List.map_congr_left fun off hoff => by
      rw [List.mem_singleton.1 hoff, hword _ 2 (by decide), hkind, hlive]
  have husable : s.latchedForReset.tables.usable .timing = (s.latch .timing [2]).2.tables.usable .timing := by
    rw [TableStore.usable, hkind, TableStore.usable]
  rw [hcorrected, husable]
  exact State.latch_agrees (List.nodup_singleton 2) h.timingWords

theorem State.timingRead_again : ((s.latch .timing [2]).2.latch .timing [2]).1 = (s.latch .timing [2]).1 := by
  rw [State.latch_agrees (List.nodup_singleton 2) h.latch_timing.timingWords,
    State.latch_agrees (List.nodup_singleton 2) h.timingWords, State.latch_latch h.timing,
    (s.latch_conserves .timing [2]).live]

theorem State.viewRead_eq :
    (((s.latch .timing [2]).2.latch .timing [2]).2.latch .view [0, 8, 16, 24]).1 =
      if s.latchedForReset.tables.usable .view then
        some (s.latchedForReset.tables.corrected .view (s.latchedForReset.tables.kind .view).live [0, 8, 16, 24])
      else none := by
  have hreadable := h.latch_timing.latch_timing
  unfold State.latchedForReset
  generalize ((s.latch .timing [2]).2.latch .timing [2]).2 = x at hreadable ⊢
  rw [(x.latch_conserves .view [0, 8, 16, 24]).live]
  exact State.latch_agrees (by decide) (hreadable.imp_right And.right)

end

end Sys2Proof.Machine
end

section
/-! SUPPORT. The fault manager after a soft reset (R140, R141): a list of new occurrences, each recorded when its
descriptor is enabled, and the standing conditions that give them. -/

namespace Sys2Proof.Machine

/-! ### A list of occurrences -/

/-- An occurrence: its descriptor and its detail. -/
abbrev Occurrence : Type := Descriptor × List Word

/-- The records that a list of occurrences leaves in an empty log, when every one is of another descriptor (R123,
R136). -/
def recordsOf (enables : BitVec 51) (now : Time) (taken : List Occurrence) : List FaultRecord :=
  (taken.filter fun e => inSet enables e.1).zipIdx.map fun e => ⟨BitVec.ofNat 16 e.2, now, e.1.1, e.1.2, 0⟩

section
variable {enables : BitVec 51} {now : Time} {taken : List Occurrence}

theorem length_recordsOf : (recordsOf enables now taken).length = (taken.filter fun e => inSet enables e.1).length := by
  rw [recordsOf, List.length_map, List.length_zipIdx]

theorem recordsOf_append_enabled {d : Descriptor} (h : inSet enables d = true) (w : List Word) :
    recordsOf enables now (taken ++ [(d, w)]) =
      recordsOf enables now taken ++ [⟨BitVec.ofNat 16 (recordsOf enables now taken).length, now, d, w, 0⟩] := by
  rw [length_recordsOf]
  simp [recordsOf, h, List.zipIdx_append]

theorem recordsOf_append_disabled {d : Descriptor} (h : inSet enables d = false) (w : List Word) :
    recordsOf enables now (taken ++ [(d, w)]) = recordsOf enables now taken := by
  simp [recordsOf, h]

end

/-- A fault manager that has taken these occurrences since its flags and its log were cleared. -/
structure FaultManager.Took (fm : FaultManager) (on : BitVec 51) (now : Time) (taken : List Occurrence) : Prop where
  enables : fm.enables = on
  flags : ∀ d, inSet fm.flags d = (decide (d ∈ taken.map Prod.fst) && inSet on d)
  log : fm.log = recordsOf on now taken
  nextSequence : fm.nextSequence = BitVec.ofNat 16 (recordsOf on now taken).length
  lost : fm.lost = 0

/-- The reports of a list of conditions as active. -/
def FaultManager.activateAll (fm : FaultManager) (now : Time) (news : List Occurrence) : FaultManager :=
  news.foldl (fun fm1 e => fm1.becameActive now e.1 e.2) fm

section
variable {fm : FaultManager} {enables : BitVec 51} {now : Time} {taken : List Occurrence}

/-- The occurrence of a further descriptor, while the log has room. -/
theorem FaultManager.Took.occur (h : fm.Took enables now taken) {d : Descriptor} (hnew : d ∉ taken.map Prod.fst)
    (hroom : taken.length < 32) (w : List Word) : (fm.occur now d w).Took enables now (taken ++ [(d, w)]) := by
  have hflag : inSet fm.flags d = false := by rw [h.flags, decide_eq_false hnew, Bool.false_and]
  have hflags : ∀ e, inSet (fm.occur now d w).flags e =
      (decide (e ∈ (taken ++ [(d, w)]).map Prod.fst) && inSet enables e) := fun e => by
    have hmem : e ∈ (taken ++ [(d, w)]).map Prod.fst ↔ e ∈ taken.map Prod.fst ∨ e = d := by
      rw [List.map_append, List.mem_append, List.map_singleton, List.mem_singleton]
    rw [FaultManager.occur_inSet_flags, h.flags, h.enables, decide_eq_decide.2 hmem, Bool.decide_or,
      Bool.and_or_distrib_right]
    by_cases he : e = d
    · rw [he]
    · rw [decide_eq_false he, Bool.false_and, Bool.false_and]
  cases hd : inSet enables d with
  | false =>
    have hsame : fm.occur now d w = fm := FaultManager.occur_refused (by rw [h.enables, hd]; simp) now w
    rw [hsame] at hflags ⊢
    exact ⟨h.enables, hflags, by rw [h.log, recordsOf_append_disabled hd],
      by rw [h.nextSequence, recordsOf_append_disabled hd], h.lost⟩
  | true =>
    have hlog : fm.log.length < 32 := by
      rw [h.log, length_recordsOf]
      exact Nat.lt_of_le_of_lt (List.length_filter_le ..) hroom
    have hnext := FaultManager.occur_recorded (fm := fm) ⟨h.enables.symm ▸ hd, hflag⟩ hlog now w
    refine ⟨by rw [FaultManager.occur_enables, h.enables], hflags, ?_, ?_, by rw [hnext]⟩ <;> rw [hnext]
    · dsimp only
      rw [recordsOf_append_enabled hd, h.log, h.nextSequence, h.lost]
    · dsimp only
      rw [recordsOf_append_enabled hd, h.nextSequence, List.length_append, List.length_singleton, BitVec.ofNat_add]
      rfl

/-- A report of a condition that was inactive is an occurrence. -/
theorem FaultManager.Took.becameActive (h : fm.Took enables now taken) {d : Descriptor}
    (hinactive : inSet fm.conditions d = false) (hnew : d ∉ taken.map Prod.fst) (hroom : taken.length < 32)
    (w : List Word) : (fm.becameActive now d w).Took enables now (taken ++ [(d, w)]) := by
  rw [FaultManager.becameActive_of_inactive hinactive]
  exact FaultManager.Took.occur (fm := { fm with conditions := withD fm.conditions d })
    ⟨h.enables, h.flags, h.log, h.nextSequence, h.lost⟩ hnew hroom w

/-- A list of conditions reported, each of them new, is as many occurrences. -/
theorem FaultManager.Took.activateAll {news : List Occurrence} (h : fm.Took enables now taken)
    (hinactive : ∀ d ∈ news.map Prod.fst, inSet fm.conditions d = false)
    (hd : ((taken ++ news).map Prod.fst).Nodup) (hroom : (taken ++ news).length ≤ 32) :
    (fm.activateAll now news).Took enables now (taken ++ news) := by
  induction news generalizing fm taken with
  | nil => rwa [List.append_nil]
  | cons e rest ih =>
    obtain ⟨d, w⟩ := e
    have hsplit : taken ++ (d, w) :: rest = (taken ++ [(d, w)]) ++ rest := by simp
    have hdisjoint : ∀ x ∈ taken.map Prod.fst, x ∉ d :: rest.map Prod.fst := by
      rw [List.map_append, List.nodup_append] at hd
      exact fun x hx hmem => hd.2.2 x hx x hmem rfl
    have hrest : d ∉ rest.map Prod.fst := by
      rw [List.map_append, List.nodup_append] at hd
      exact (List.nodup_cons.1 hd.2.1).1
    have hfirst := h.becameActive (hinactive d (List.mem_cons_self ..))
      (fun hx => hdisjoint d hx (List.mem_cons_self ..)) (by simp at hroom; omega) w
    rw [hsplit] at hd hroom ⊢
    refine ih hfirst (fun x hx => ?_) hd hroom
    have hne : x ≠ d := fun hxd => hrest (hxd ▸ hx)
    rw [FaultManager.becameActive_inSet, hinactive x (List.mem_cons_of_mem _ hx), decide_eq_false hne, Bool.or_false]

@[simp] theorem FaultManager.activateAll_pulses (news : List Occurrence) :
    (fm.activateAll now news).pulses = fm.pulses := by
  induction news generalizing fm with
  | nil => rfl
  | cons e rest ih => exact ih.trans (fm.becameActive_pulses now e.1 e.2)

@[simp] theorem FaultManager.activateAll_holdOff (news : List Occurrence) :
    (fm.activateAll now news).holdOff = fm.holdOff := by
  induction news generalizing fm with
  | nil => rfl
  | cons e rest ih => exact ih.trans (fm.becameActive_holdOff now e.1 e.2)

/-- The conditions that are reported are active, and no other copy changes (R119). -/
theorem FaultManager.activateAll_inSet (news : List Occurrence) (d : Descriptor) :
    inSet (fm.activateAll now news).conditions d = (inSet fm.conditions d || decide (d ∈ news.map Prod.fst)) := by
  induction news generalizing fm with
  | nil => simp [FaultManager.activateAll]
  | cons e rest ih =>
    refine (ih (fm := fm.becameActive now e.1 e.2)).trans ?_
    simp only [FaultManager.becameActive_inSet, List.map_cons, Bool.or_assoc, ← Bool.decide_or, List.mem_cons]

end

/-! ### The standing conditions (R115, R140, R141) -/

/-- A list of conditions reported to the fault manager of a state. -/
def State.activateAll (s : State) (news : List Occurrence) : State :=
  { s with faults := s.faults.activateAll s.now news }

theorem State.activateAll_append (s : State) (news more : List Occurrence) :
    (s.activateAll news).activateAll more = s.activateAll (news ++ more) := by
  unfold State.activateAll FaultManager.activateAll
  rw [List.foldl_append]
  rfl

@[simp] theorem State.activateAll_unit (s : State) (news : List Occurrence) (side : Side) :
    (s.activateAll news).unit side = s.unit side := by cases side <;> rfl

@[simp] theorem State.activateAll_tables (s : State) (news : List Occurrence) : (s.activateAll news).tables = s.tables :=
  rfl

/-- The standing camera condition of a side. -/
def Ingest.standing (i : Ingest) (side : Side) : List Occurrence :=
  if i.link = .noSignal then [(.cam side .linkLost, [])] else []

/-- The standing display conditions of a side. -/
def Light.standing (l : Light) (side : Side) : List Occurrence :=
  (if l.known then [] else [(.disp side .telemetryLost, [])]) ++
    if l.status = 0 then [] else [(.disp side .displayReported, [l.status.zeroExtend 32])]

/-- The standing condition of the tables, with the head of the corruption list. -/
def TableStore.standing (ts : TableStore) : List Occurrence :=
  match ts.corruptions with
  | [] => []
  | (k, off) :: _ => [(.core .tableDed, [BitVec.ofNat 32 k.code, BitVec.ofNat 32 off])]

/-- The standing conditions in order of source and kind. -/
def State.standing (s : State) : List Occurrence :=
  s.left.ingest.standing .left ++ s.right.ingest.standing .right ++ s.left.light.standing .left ++
    s.right.light.standing .right ++ s.tables.standing

section
variable (s : State) (side : Side)

theorem State.standCamera_eq : s.standCamera side = s.activateAll ((s.unit side).ingest.standing side) := by
  unfold State.standCamera Ingest.standing
  split <;> rfl

theorem State.standDisplay_eq : s.standDisplay side = s.activateAll ((s.unit side).light.standing side) := by
  unfold State.standDisplay Light.standing
  dsimp only
  split <;> split <;> rfl

theorem State.standTables_eq : s.standTables = s.activateAll s.tables.standing := by
  unfold State.standTables TableStore.standing
  cases s.tables.corruptions with
  | nil => rfl
  | cons e rest => rfl

/-- Taking the standing conditions is RESET_SEEN and one report for each of them (R141). -/
theorem State.takeStanding_eq : s.takeStanding = (s.raise (.core .resetSeen) [2]).activateAll s.standing := by
  simp only [State.takeStanding, State.standCamera_eq, State.standDisplay_eq, State.standTables_eq,
    State.activateAll_append, State.activateAll_unit, State.activateAll_tables, State.raise_unit, State.raise_tables]
  rfl

/-- The fault manager when the standing conditions are taken. -/
theorem State.takeStanding_faults :
    s.takeStanding.faults = (s.faults.happened s.clock (.core .resetSeen) [2]).activateAll s.now s.standing := by
  rw [State.takeStanding_eq]
  rfl

/-- Taking the standing conditions changes the fault manager alone. -/
theorem State.takeStanding_eq_faults : s.takeStanding = { s with faults := s.takeStanding.faults } := by
  rw [State.takeStanding_faults, State.takeStanding_eq]
  rfl

/-! ### The descriptors that stand -/

/-- Whether the condition of a descriptor stands, from what each of the four conditions looks at. -/
def standsIn (lost unknown reported : Side → Bool) (corrupt : Bool) : Descriptor → Bool
  | .cam side .linkLost => lost side
  | .disp side .telemetryLost => unknown side
  | .disp side .displayReported => reported side
  | .core .tableDed => corrupt
  | _ => false

/-- Whether the condition of a descriptor stands after a reset. -/
def State.stands (s : State) : Descriptor → Bool :=
  standsIn (fun side => (s.unit side).ingest.link == .noSignal) (fun side => !(s.unit side).light.known)
    (fun side => (s.unit side).light.status != 0) (!s.tables.corruptions.isEmpty)

/-- The descriptors that can stand after a reset, in order of source and kind. -/
def standingDescriptors : List Descriptor :=
  [.cam .left .linkLost, .cam .right .linkLost, .disp .left .telemetryLost, .disp .left .displayReported,
    .disp .right .telemetryLost, .disp .right .displayReported, .core .tableDed]

theorem map_fst_of_stands {p : Descriptor → Bool} {d : Descriptor} (h : p d = true) (w : List Word) :
    ([(d, w)] : List Occurrence).map Prod.fst = [d].filter p := by simp [h]

theorem map_fst_of_not_stands {p : Descriptor → Bool} {d : Descriptor} (h : p d = false) :
    ([] : List Occurrence).map Prod.fst = [d].filter p := by simp [h]

/-- The descriptors of the standing conditions are those of the seven whose condition stands. -/
theorem State.standing_map_fst : s.standing.map Prod.fst = standingDescriptors.filter s.stands := by
  have hcamera : ∀ side, ((s.unit side).ingest.standing side).map Prod.fst = [.cam side .linkLost].filter s.stands :=
    fun side => by
      unfold Ingest.standing
      split
      next h => exact map_fst_of_stands (by simp [State.stands, standsIn, h]) _
      next h => exact map_fst_of_not_stands (by simp [State.stands, standsIn, h])
  have hdisplay : ∀ side, ((s.unit side).light.standing side).map Prod.fst =
      [.disp side .telemetryLost].filter s.stands ++ [.disp side .displayReported].filter s.stands := fun side => by
    rw [Light.standing, List.map_append]
    congr 1
    · split
      next h => exact map_fst_of_not_stands (by simp [State.stands, standsIn, h])
      next h => exact map_fst_of_stands (by simp [State.stands, standsIn, h]) _
    · split
      next h => exact map_fst_of_not_stands (by simpa [State.stands, standsIn] using h)
      next h => exact map_fst_of_stands (by simpa [State.stands, standsIn] using h) _
  have htables : s.tables.standing.map Prod.fst = [.core .tableDed].filter s.stands := by
    unfold TableStore.standing
    split
    next h => exact map_fst_of_not_stands (by simp [State.stands, standsIn, h])
    next h => exact map_fst_of_stands (by simp [State.stands, standsIn, h]) _
  have hleft := hcamera .left
  have hright := hcamera .right
  have hleftDisplay := hdisplay .left
  have hrightDisplay := hdisplay .right
  simp only [State.unit] at hleft hright hleftDisplay hrightDisplay
  simp only [State.standing, List.map_append, hleft, hright, hleftDisplay, hrightDisplay, htables,
    ← List.filter_append]
  rfl

theorem State.mem_standing (d : Descriptor) : d ∈ s.standing.map Prod.fst ↔ s.stands d = true := by
  rw [State.standing_map_fst, List.mem_filter, and_iff_right_iff_imp]
  intro h
  unfold State.stands standsIn at h
  split at h
  next side => cases side <;> decide
  next side => cases side <;> decide
  next side => cases side <;> decide
  next => decide
  next => cases h

end

/-! ### The fault manager of a soft reset -/

/-- A soft reset of the fault manager, followed by RESET_SEEN: one occurrence since the log was cleared. -/
theorem FaultManager.softReset_took (fm : FaultManager) (clock : Nat) :
    (fm.softReset.happened clock (.core .resetSeen) [2]).Took fm.enables (BitVec.ofNat 32 clock)
      [(.core .resetSeen, [2])] := by
  unfold FaultManager.happened
  exact FaultManager.Took.occur (taken := []) ⟨rfl, fun d => inSet_zero d, rfl, rfl, rfl⟩ List.not_mem_nil
    (by decide) [2]

section
variable {s : State} {fm : FaultManager} (h : s.faults = fm.softReset)
include h

/-- After its soft reset the fault manager has taken RESET_SEEN and the standing conditions, and nothing else. -/
theorem State.takeStanding_took :
    s.takeStanding.faults.Took fm.enables s.now ((.core .resetSeen, [2]) :: s.standing) := by
  have hfirst := fm.softReset_took s.clock
  have hdescriptors : ((.core .resetSeen :: standingDescriptors.filter s.stands)).Sublist
      (.core .resetSeen :: standingDescriptors) := List.filter_sublist.cons_cons _
  rw [State.takeStanding_faults, h]
  refine hfirst.activateAll (news := s.standing) (fun d _ => ?_) ?_ ?_
  · rw [FaultManager.happened_conditions]
    exact inSet_zero d
  · rw [List.map_append, State.standing_map_fst]
    exact hdescriptors.nodup (by decide)
  · rw [← List.length_map (f := Prod.fst), List.map_append, State.standing_map_fst]
    exact hdescriptors.length_le.trans (by decide)

theorem State.takeStanding_inSet (d : Descriptor) : inSet s.takeStanding.faults.conditions d = s.stands d := by
  rw [State.takeStanding_faults, h, FaultManager.activateAll_inSet, FaultManager.happened_conditions]
  refine (congrArg (· || _) (inSet_zero d)).trans ?_
  rw [Bool.false_or, Bool.eq_iff_iff, decide_eq_true_iff, State.mem_standing]

theorem State.takeStanding_pulse (d : Descriptor) :
    s.takeStanding.faults.pulses[d.index.val]'d.index.isLt =
      if d = .core .resetSeen then some (s.clock + 500000) else none := by
  simp only [State.takeStanding_faults, h, FaultManager.activateAll_pulses, FaultManager.happened_pulses]
  split
  next hd => simp [hd, Config.pulseTime]
  next hd =>
    have hindex : (Descriptor.core .resetSeen).index.val ≠ d.index.val := fun hi => hd (index_inj hi).symm
    rw [Vector.getElem_set_ne (Descriptor.index _).isLt d.index.isLt hindex]
    exact Vector.getElem_replicate d.index.isLt

theorem State.takeStanding_holdOff : s.takeStanding.faults.holdOff = none := by
  rw [State.takeStanding_faults, h, FaultManager.activateAll_holdOff, FaultManager.happened_holdOff]
  rfl

end

end Sys2Proof.Machine
end

section
/-! SUPPORT. The soft reset (R190): its blocks are reset in the state that its latches leave, then the standing conditions
are taken. -/

namespace Sys2Proof.Machine

section
variable {side : Side} {a s : State} (h : OnlySide side a s)
include h

theorem OnlySide.clearing : s.clearing = a.clearing := by
  have hclearing := congrArg State.clearing h.rest
  exact hclearing

theorem OnlySide.pending : s.pending = a.pending := by
  have hpending := congrArg State.pending h.rest
  exact hpending

end

section
variable (s : State)

/-! ### The state in which the standing conditions are taken -/

/-- The instant at which a silent timer runs out that is armed with a timeout read (R24). -/
def silentDueOf (clock : Nat) (read : Option (List (Nat × Word))) : Nat :=
  clock + (read.map fun ws => bits (wordAt ws 2) 0 10).getD 200 * 1000

/-- What the latch of a side's silent timeout reads. -/
def State.resetTimeoutRead : Side → Option (List (Nat × Word))
  | .left => (s.finishSyncs.latch .timing [2]).1
  | .right => ((s.finishSyncs.latch .timing [2]).2.latch .timing [2]).1

/-- What the latch of the default origins reads. -/
def State.resetOriginRead : Option (List (Nat × Word)) :=
  (((s.finishSyncs.latch .timing [2]).2.latch .timing [2]).2.latch .view [0, 8, 16, 24]).1

/-- The blocks of a side after the reset. -/
def State.resetSide (side : Side) : SideUnit :=
  match side with
  | .left => s.left.softReset (silentDueOf s.clock (s.resetTimeoutRead .left)) (resetOriginOf s.resetOriginRead .leftMain)
      (resetOriginOf s.resetOriginRead .leftWide)
  | .right => s.right.softReset (silentDueOf s.clock (s.resetTimeoutRead .right))
      (resetOriginOf s.resetOriginRead .rightMain) (resetOriginOf s.resetOriginRead .rightWide)

/-- The state after the latches, with every block reset. -/
def State.resetBlocks : State :=
  { s with
    mode := .config
    left := s.resetSide .left
    right := s.resetSide .right
    latestStartL := none
    skew := none
    faults := s.resetLatched.faults.softReset
    tables := s.resetLatched.tables
    executor := .idle
    lastServed := .right }

theorem State.performSoftReset_eq : s.performSoftReset = s.resetBlocks.takeStanding := by
  have hlatches := s.resetLatched_onlySide .left
  have hclock : s.finishSyncs.clock = s.clock := (s.finishSyncs_onlySide .left).clock
  have hclearing : s.resetLatched.clearing = s.clearing := hlatches.clearing
  have hpending : s.resetLatched.pending = s.pending := hlatches.pending
  have hleft : s.resetLatched.left = s.left := s.resetLatched_unit .left
  have hright : s.resetLatched.right = s.right := s.resetLatched_unit .right
  unfold State.resetLatched State.latchedForReset at hclearing hpending hleft hright
  unfold State.performSoftReset State.latchSilentDue
  dsimp only
  simp only [State.latch_clock, hclock, hclearing, hpending, hleft, hright]
  unfold State.resetBlocks State.resetSide State.resetTimeoutRead State.resetOriginRead State.resetLatched
    State.latchedForReset silentDueOf Config.fallbackSilentMs
  rfl

/-- The soft reset changes the fault manager alone after the reset of the blocks. -/
theorem State.performSoftReset_eq_faults :
    s.performSoftReset = { s.resetBlocks with faults := s.performSoftReset.faults } := by
  rw [State.performSoftReset_eq]
  exact s.resetBlocks.takeStanding_eq_faults

theorem State.performSoftReset_clock : s.performSoftReset.clock = s.clock := by
  rw [State.performSoftReset_eq_faults]
  rfl

theorem State.performSoftReset_tables : s.performSoftReset.tables = s.resetLatched.tables := by
  rw [State.performSoftReset_eq_faults, State.resetBlocks]

theorem State.performSoftReset_unit (side : Side) : s.performSoftReset.unit side = s.resetSide side := by
  rw [State.performSoftReset_eq_faults]
  cases side <;> rfl

theorem State.resetSide_ingest (side : Side) :
    (s.resetSide side).ingest = (s.unit side).ingest.softReset (silentDueOf s.clock (s.resetTimeoutRead side)) := by
  cases side <;> rfl

theorem State.performSoftReset_view (v : View) :
    s.performSoftReset.view v = (s.view v).softReset (resetOriginOf s.resetOriginRead v) := by
  rw [State.performSoftReset_eq_faults]
  cases v <;> rfl

/-! ### The blocks of a side (R26, R48, R56, R57, R74, R98, R115, R154, R191) -/

theorem Ingest.softReset_eq (i : Ingest) (due : Nat) :
    i.softReset due =
      { link := i.link, frame := none, expected := none, lastSignature := none, identicalRun := 0,
        prevStart := none, lastPeriod := none, lastActive := none, patternPending := false, slotHeld := false,
        silentDue := some due
        sentRequests :=
          if i.patternPending = true ∧ i.link = .locked then i.sentRequests ++ [false] else i.sentRequests } := by
  unfold Ingest.softReset Ingest.withdraw
  dsimp only
  split <;> rfl

theorem Composer.softReset_eq (c : Composer) :
    c.softReset =
      { c with
        timing := .free, inWindow := 0, pendingEnd := none, period := none, completion := none
        nextOut :=
          match c.prevOut with
          | some p => p + c.latched.nominal
          | none => c.nextOut } := by
  unfold Composer.softReset Composer.setFreeDue
  cases h : c.prevOut <;> rfl

theorem ViewUnit.softReset_eq (u : ViewUnit) (origin : Nat × Nat) :
    { u.softReset origin with ring := u.ring, originX := u.originX, originY := u.originY } =
      { u with state := .notReady, recovery := 0, latency := none } := rfl

theorem ViewUnit.softReset_statuses (u : ViewUnit) (origin : Nat × Nat) :
    (u.softReset origin).ring.statuses = [.free, .free, .free] := u.ring.freeAll_statuses

/-! ### The timeouts and the origins (R24, R57) -/

section
variable {s : State}
  (h : s.tables.sound ∨ ((∀ k, (s.tables.kind k).sync = none) ∧ s.tables.resetWordsClean))
include h

/-- Both silent timers are armed with the timeout of the live bank that the reset leaves, or with the fallback. -/
theorem State.silentDueOf_resetTimeoutRead (side : Side) :
    silentDueOf s.clock (s.resetTimeoutRead side) =
      s.clock + 1000 *
        if s.resetLatched.tables.usable .timing then
          bits (s.resetLatched.tables.word .timing (s.resetLatched.tables.kind .timing).live 2).data 0 10
        else 200 := by
  have hreadable := State.finishSyncs_readable h
  have hread : s.resetTimeoutRead side =
      if s.resetLatched.tables.usable .timing then
        some (s.resetLatched.tables.corrected .timing (s.resetLatched.tables.kind .timing).live [2])
      else none := by
    cases side with
    | left => exact State.timingRead_eq hreadable
    | right => exact (State.timingRead_again hreadable).trans (State.timingRead_eq hreadable)
  rw [hread, silentDueOf, Nat.mul_comm]
  split
  next => rw [Option.map_some, Option.getD_some, wordAt_corrected _ _ _ (List.mem_singleton_self 2)]
  next => rfl

/-- Each origin is the default of the live bank that the reset leaves, or the fallback. -/
theorem State.resetOriginOf_resetOriginRead (v : View) :
    resetOriginOf s.resetOriginRead v =
      if s.resetLatched.tables.usable .view then
        (bits (s.resetLatched.tables.word .view (s.resetLatched.tables.kind .view).live (8 * v.index)).data 0 11,
          bits (s.resetLatched.tables.word .view (s.resetLatched.tables.kind .view).live (8 * v.index)).data 16 11)
      else (0, if v.isMain then 0 else 848) := by
  have hread : s.resetOriginRead =
      if s.resetLatched.tables.usable .view then
        some (s.resetLatched.tables.corrected .view (s.resetLatched.tables.kind .view).live [0, 8, 16, 24])
      else none := State.viewRead_eq (State.finishSyncs_readable h)
  have hoffset : 8 * v.index ∈ [0, 8, 16, 24] := by cases v <;> decide
  rw [hread, resetOriginOf]
  split
  next => rw [Option.map_some, Option.getD_some, defaultOrigin, wordAt_corrected _ _ _ hoffset]
  next => rfl

end

/-! ### The fault manager (R140, R141) -/

theorem State.readWord_enables (k : Kind) (b : Bank) (off : Nat) :
    (s.readWord k b off).2.faults.enables = s.faults.enables := by
  rcases s.readWord_cases k b off with ⟨-, e⟩ | ⟨-, e⟩ | ⟨-, e⟩ <;> rw [e]
  · exact FaultManager.happened_enables ..
  · dsimp only
    split
    next =>
      rw [State.corruptKind_faults]
      split
      next => exact FaultManager.becameActive_enables ..
      next => rfl
    next => rfl

theorem State.latch_enables (k : Kind) (offs : List Nat) : (s.latch k offs).2.faults.enables = s.faults.enables :=
  State.latch_induction (p := fun x => x.faults.enables = s.faults.enables) rfl fun x off _ hx =>
    (x.readWord_enables k _ off).trans hx

theorem State.copyWord_faults (k : Kind) (c : SyncCopy) :
    (s.copyWord k c).faults = (s.readWord k (s.tables.kind k).live c.next).2.faults := by
  unfold State.copyWord
  rfl

theorem State.finishSyncs_enables : s.finishSyncs.faults.enables = s.faults.enables := by
  have hfold : ∀ (kinds : List Kind) (x : State), (x.finishSyncsOf kinds).faults.enables = x.faults.enables :=
    fun kinds => by
      induction kinds with
      | nil => exact fun _ => rfl
      | cons k rest ih =>
        refine fun x => (ih (x.finishSync k k.size)).trans ?_
        refine State.finishSync_induction (p := fun y => y.faults.enables = x.faults.enables) k.size rfl
          fun y c _ hy => ?_
        rw [State.copyWord_faults, State.readWord_enables, hy]
  rw [State.finishSyncs_eq]
  exact hfold allKinds s

theorem State.resetLatched_enables : s.resetLatched.faults.enables = s.faults.enables := by
  simp only [State.resetLatched, State.latchedForReset, State.latch_enables]
  exact s.finishSyncs_enables

/-- The reset keeps the link states, the display states and the corruption list, so that it keeps what stands. -/
theorem State.resetBlocks_standing :
    s.resetBlocks.standing =
      s.left.ingest.standing .left ++ s.right.ingest.standing .right ++ s.left.light.standing .left ++
        s.right.light.standing .right ++ s.resetLatched.tables.standing := by
  have hingest : ∀ (i : Ingest) due side, (i.softReset due).standing side = i.standing side := fun i due side => by
    rw [Ingest.softReset_eq]
    rfl
  unfold State.resetBlocks State.standing State.resetSide SideUnit.softReset
  dsimp only
  rw [hingest, hingest]
  rfl

theorem State.resetBlocks_unit (side : Side) : s.resetBlocks.unit side = s.resetSide side := by
  unfold State.resetBlocks
  cases side <;> rfl

theorem State.resetBlocks_stands :
    s.resetBlocks.stands =
      standsIn (fun side => (s.unit side).ingest.link == .noSignal) (fun side => !(s.unit side).light.known)
        (fun side => (s.unit side).light.status != 0) (!s.resetLatched.tables.corruptions.isEmpty) := by
  have hlink : ∀ side, (s.resetBlocks.unit side).ingest.link = (s.unit side).ingest.link := fun side => by
    rw [State.resetBlocks_unit, State.resetSide_ingest, Ingest.softReset_eq]
  have hlight : ∀ side, (s.resetBlocks.unit side).light = (s.unit side).light.softReset := fun side => by
    rw [State.resetBlocks_unit]
    cases side <;> rfl
  have htables : s.resetBlocks.tables = s.resetLatched.tables := by rw [State.resetBlocks]
  simp only [State.stands, hlink, hlight, htables, Light.softReset]

end

end Sys2Proof.Machine
end

section
/-! SUPPORT. The soft reset instant (R190), and the statement about it. -/

namespace Sys2Proof.Machine

/-- A soft reset instant that finds no executor in RESET_PENDING with an empty response queue changes device time
alone. -/
theorem exec_softResetInstant_none (t : Time) {s : State}
    (h : ∀ link, s.executor = .resetPending link → (s.unit link).channel.responses ≠ []) :
    exec (.softResetInstant t) s = .next (s.advance t) := by
  refine congrArg Host.Outcome.next ?_
  rw [State.advance_executor]
  split
  next link hlink => rw [State.advance_unit, if_neg (h link hlink)]
  next => rfl

/-- The soft reset instant of a RESET_PENDING executor whose response has left. -/
theorem exec_softResetInstant_due (t : Time) {s : State} {link : Side} (h : s.executor = .resetPending link)
    (hsent : (s.unit link).channel.responses = []) :
    exec (.softResetInstant t) s = .next (s.advance t).performSoftReset := by
  refine congrArg Host.Outcome.next ?_
  rw [State.advance_executor, h]
  dsimp only
  rw [State.advance_unit, if_pos hsent]

section
variable (s : State)

theorem State.resetBlocks_faults : s.resetBlocks.faults = s.resetLatched.faults.softReset := by rw [State.resetBlocks]

theorem State.resetBlocks_clock : s.resetBlocks.clock = s.clock := by rw [State.resetBlocks]

theorem State.resetBlocks_now : s.resetBlocks.now = s.now := by rw [State.now, s.resetBlocks_clock, State.now]

/-- What the fault manager has taken when the soft reset is done. -/
theorem State.performSoftReset_took :
    s.performSoftReset.faults.Took s.faults.enables s.now ((.core .resetSeen, [2]) :: s.resetBlocks.standing) := by
  rw [State.performSoftReset_eq, ← s.resetLatched_enables, ← s.resetBlocks_now]
  exact State.takeStanding_took s.resetBlocks_faults

theorem State.performSoftReset_inSet (d : Descriptor) :
    inSet s.performSoftReset.faults.conditions d = s.resetBlocks.stands d := by
  rw [State.performSoftReset_eq]
  exact State.takeStanding_inSet s.resetBlocks_faults d

/-- A flag is set when its descriptor was reported and is enabled. -/
theorem State.performSoftReset_flags (d : Descriptor) :
    inSet s.performSoftReset.faults.flags d =
      ((d == .core .resetSeen || inSet s.performSoftReset.faults.conditions d) && inSet s.faults.enables d) := by
  rw [s.performSoftReset_took.flags, State.performSoftReset_inSet]
  congr 1
  rw [Bool.eq_iff_iff, decide_eq_true_iff, List.map_cons, List.mem_cons, State.mem_standing, Bool.or_eq_true, beq_iff_eq]

theorem State.performSoftReset_holdOff : s.performSoftReset.faults.holdOff = none := by
  rw [State.performSoftReset_eq]
  exact State.takeStanding_holdOff s.resetBlocks_faults

theorem State.performSoftReset_clears :
    s.performSoftReset.clearing = s.clearing ∧ s.performSoftReset.pending = s.pending ∧
      s.performSoftReset.mode = .config ∧ s.performSoftReset.skew = none ∧ s.performSoftReset.latestStartL = none ∧
      s.performSoftReset.executor = .idle ∧ s.performSoftReset.lastServed = .right := by
  rw [State.performSoftReset_eq_faults, State.resetBlocks]
  exact ⟨rfl, rfl, rfl, rfl, rfl, rfl, rfl⟩

/-- The records of the tables: their health apart, the end of the sync copies is all that changes. -/
theorem State.resetLatched_record (k : Kind) :
    s.resetLatched.tables.kind k =
      { s.tables.kind k with sync := none, corrupt := (s.resetLatched.tables.kind k).corrupt } := by
  rw [← s.resetLatched_sync k]
  exact s.resetLatched_conserves.record k

end

/-- Settles O27: the latches leave the store with what they read, the blocks are reset by their definitions, and every
standing condition is a first occurrence for the cleared fault manager. -/
theorem softResetInstantResetsTheBlocks : Obligations.SoftResetInstantResetsTheBlocks := by
  unfold Obligations.SoftResetInstantResetsTheBlocks
  refine ⟨fun t s h => exec_softResetInstant_none t h, fun t link s hpending hsent => ?_⟩
  intro live noSync clean
  refine ⟨_, exec_softResetInstant_due t hpending hsent, ?_⟩
  have hreadable : s.tables.sound ∨ (noSync ∧ clean) → (s.advance t).tables.sound ∨
      ((∀ k, ((s.advance t).tables.kind k).sync = none) ∧ (s.advance t).tables.resetWordsClean) := id
  have hunit : ∀ side, (s.advance t).performSoftReset.unit side = (s.advance t).resetSide side :=
    (s.advance t).performSoftReset_unit
  have hview : ∀ v, (s.advance t).performSoftReset.view v =
      (s.view v).softReset (resetOriginOf (s.advance t).resetOriginRead v) := (s.advance t).performSoftReset_view
  have hclock : (s.advance t).performSoftReset.clock = (s.advance t).clock := State.performSoftReset_clock _
  have htables : (s.advance t).performSoftReset.tables = (s.advance t).resetLatched.tables :=
    State.performSoftReset_tables _
  have htook := (s.advance t).performSoftReset_took
  have hnow : (s.advance t).performSoftReset.now = (s.advance t).now := by rw [State.now, hclock, State.now]
  have hpulse := State.takeStanding_pulse (s.advance t).resetBlocks_faults
  rw [State.resetBlocks_clock] at hpulse
  have hconserves : s.tables.Conserves (s.advance t).performSoftReset.tables := by
    rw [htables]
    exact (s.advance t).resetLatched_conserves
  obtain ⟨hclearing, hwaiting, hmode, hskew, hstart, hidle, hserved⟩ := (s.advance t).performSoftReset_clears
  refine ⟨hclock, hclearing, hwaiting, hmode, hskew, hstart, hidle, hserved, fun side => ?side, fun v => ?view,
    htook.enables, State.performSoftReset_holdOff _, htook.lost, fun d => ?conditions, State.performSoftReset_flags _,
    ?records, fun d => ?pulses, fun k => ?record, hconserves.corruptions, hconserves.scrubPosition, hconserves.scrubDue,
    fun hsync hclean => ?clean, fun hs k off hoff => ⟨?live, ?shadow⟩, fun hr v => ?origin⟩
  case side =>
    dsimp only
    rw [hunit, hclock, htables, State.resetSide_ingest, Ingest.softReset_eq]
    refine ⟨rfl, rfl, fun hr => ?_, ?_⟩
    · exact congrArg some (State.silentDueOf_resetTimeoutRead (hreadable hr) side)
    · cases side <;> exact ⟨rfl, rfl, rfl, rfl, rfl, rfl, Composer.softReset_eq _⟩
  case view =>
    dsimp only
    rw [hview]
    exact ⟨ViewUnit.softReset_eq .., ViewUnit.softReset_statuses .., rfl⟩
  case conditions =>
    rw [State.performSoftReset_inSet, State.resetBlocks_stands, htables]
    generalize (s.advance t).resetLatched.tables = ts
    rfl
  case records =>
    rw [htook.log, htook.nextSequence, length_recordsOf, hnow, htables, State.resetBlocks_standing]
    generalize (s.advance t).resetLatched.tables = ts
    exact ⟨rfl, rfl⟩
  case pulses =>
    rw [hclock]
    simp only [State.performSoftReset_eq]
    exact hpulse d
  case record =>
    refine ⟨?_, hconserves.corrupt k, ?_⟩ <;> rw [htables]
    · exact (s.advance t).resetLatched_record k
    · exact State.resetLatched_kind (s := s.advance t)
  case clean =>
    rw [htables, State.resetLatched_of_clean (s := s.advance t) hsync hclean]
    rfl
  case live =>
    dsimp only
    rw [hconserves.live]
    exact hconserves.data hs k off hoff
  case shadow =>
    have hdone := State.resetLatched_finished (s := s.advance t) hs k off hoff
    rw [htables]
    generalize (s.advance t).resetLatched.tables = ts at hdone ⊢
    exact hdone
  case origin =>
    dsimp only
    have horigin := State.resetOriginOf_resetOriginRead (hreadable hr) v
    rw [htables, hview]
    generalize resetOriginOf (s.advance t).resetOriginRead v = origin at horigin ⊢
    generalize (s.advance t).resetLatched.tables = ts at horigin ⊢
    exact horigin

end Sys2Proof.Machine
end
